-- ==== Sys2Proof/Word.lean ====
section
/-! DEFINITION. The word types of the E0C6S46 core (spec/00_scope.md R3): every one is a value the manual
slices, adds to, or addresses with. -/

namespace Sys2Proof

/-- A nibble: the width of `A`, `B`, `F`, of a memory cell and of every ALU operand (R3, R7). -/
abbrev Nibble := BitVec 4

/-- A step value or other 8-bit quantity: `SP`, the timer bytes, the operands `s`, `l`, `x`, `y` (R3, R65). -/
abbrev Octet := BitVec 8

/-- A data-space address, and the width of the index registers `X` and `Y` (R3, R11, R40). -/
abbrev DataAddr := BitVec 12

/-- An instruction word as the ROM holds it (R3, R60). -/
abbrev InstrWord := BitVec 12

/-- An instruction-space address: bank (bit 12), page (bits 11..8), step (bits 7..0) (R15). -/
abbrev CodeAddr := BitVec 13

/-- The new-page pointer: bank (bit 4) and page (bits 3..0) (R16). -/
abbrev BankPage := BitVec 5

end Sys2Proof
end

