-- ==== Sys2Proof/Syntax.lean ====
section
/-! DEFINITION. The instruction set: one constructor per row of spec/opcode_table.json, in the table's (decode)
order (spec/30_encoding.md R66). Operands are those of R65, at the width the encoding gives them. -/

namespace Sys2Proof

/-- What a 2-bit register-select field names (spec/10_state.md R13): the registers `A` and `B`, or the memory cell
that `X` (`MX`) or `Y` (`MY`) addresses. -/
inductive Reg where
  | a
  | b
  | mx
  | my
deriving DecidableEq, Repr

/-- The 109 instruction forms of the E0C6200 instruction set (R66). `rlc` keeps the two bits `d` that the decoder
ignores (R65), so that no bit of a word is lost in decoding. -/
inductive Instr where
  -- Branch family (spec/41_branch.md)
  /-- `PSET p`, pattern `1110 010p pppp` (R100). -/
  | pset (p : BankPage)
  /-- `JP s`, pattern `0000 ssss ssss` (R101). -/
  | jp (dest : Octet)
  /-- `JP C,s`, pattern `0010 ssss ssss` (R102). -/
  | jpC (dest : Octet)
  /-- `JP NC,s`, pattern `0011 ssss ssss` (R103). -/
  | jpNC (dest : Octet)
  /-- `JP Z,s`, pattern `0110 ssss ssss` (R104). -/
  | jpZ (dest : Octet)
  /-- `JP NZ,s`, pattern `0111 ssss ssss` (R105). -/
  | jpNZ (dest : Octet)
  /-- `JPBA`, pattern `1111 1110 1000` (R106). -/
  | jpba
  /-- `CALL s`, pattern `0100 ssss ssss` (R107). -/
  | call (dest : Octet)
  /-- `CALZ s`, pattern `0101 ssss ssss` (R108). -/
  | calz (dest : Octet)
  /-- `RET`, pattern `1111 1101 1111` (R109). -/
  | ret
  /-- `RETS`, pattern `1111 1101 1110` (R110). -/
  | rets
  /-- `RETD l`, pattern `0001 llll llll` (R111). -/
  | retd (l : Octet)
  -- System family (spec/42_system.md)
  /-- `NOP5`, pattern `1111 1111 1011` (R120). -/
  | nop5
  /-- `NOP7`, pattern `1111 1111 1111` (R121). -/
  | nop7
  /-- `HALT`, pattern `1111 1111 1000` (R122). -/
  | halt
  /-- `SLP`, pattern `1111 1111 1001` (R123). -/
  | slp
  -- Index-register family (spec/43_index.md)
  /-- `INC X`, pattern `1110 1110 0000` (R130). -/
  | incX
  /-- `INC Y`, pattern `1110 1111 0000` (R131). -/
  | incY
  /-- `LD X,x`, pattern `1011 xxxx xxxx` (R132). -/
  | ldXi (v : Octet)
  /-- `LD Y,y`, pattern `1000 yyyy yyyy` (R133). -/
  | ldYi (v : Octet)
  /-- `LD XP,r`, pattern `1110 1000 00rr` (R134). -/
  | ldXPr (r : Reg)
  /-- `LD XH,r`, pattern `1110 1000 01rr` (R135). -/
  | ldXHr (r : Reg)
  /-- `LD XL,r`, pattern `1110 1000 10rr` (R136). -/
  | ldXLr (r : Reg)
  /-- `LD YP,r`, pattern `1110 1001 00rr` (R137). -/
  | ldYPr (r : Reg)
  /-- `LD YH,r`, pattern `1110 1001 01rr` (R138). -/
  | ldYHr (r : Reg)
  /-- `LD YL,r`, pattern `1110 1001 10rr` (R139). -/
  | ldYLr (r : Reg)
  /-- `LD r,XP`, pattern `1110 1010 00rr` (R140). -/
  | ldrXP (r : Reg)
  /-- `LD r,XH`, pattern `1110 1010 01rr` (R141). -/
  | ldrXH (r : Reg)
  /-- `LD r,XL`, pattern `1110 1010 10rr` (R142). -/
  | ldrXL (r : Reg)
  /-- `LD r,YP`, pattern `1110 1011 00rr` (R143). -/
  | ldrYP (r : Reg)
  /-- `LD r,YH`, pattern `1110 1011 01rr` (R144). -/
  | ldrYH (r : Reg)
  /-- `LD r,YL`, pattern `1110 1011 10rr` (R145). -/
  | ldrYL (r : Reg)
  /-- `ADC XH,i`, pattern `1010 0000 iiii` (R146). -/
  | adcXH (imm : Nibble)
  /-- `ADC XL,i`, pattern `1010 0001 iiii` (R147). -/
  | adcXL (imm : Nibble)
  /-- `ADC YH,i`, pattern `1010 0010 iiii` (R148). -/
  | adcYH (imm : Nibble)
  /-- `ADC YL,i`, pattern `1010 0011 iiii` (R149). -/
  | adcYL (imm : Nibble)
  /-- `CP XH,i`, pattern `1010 0100 iiii` (R150). -/
  | cpXH (imm : Nibble)
  /-- `CP XL,i`, pattern `1010 0101 iiii` (R151). -/
  | cpXL (imm : Nibble)
  /-- `CP YH,i`, pattern `1010 0110 iiii` (R152). -/
  | cpYH (imm : Nibble)
  /-- `CP YL,i`, pattern `1010 0111 iiii` (R153). -/
  | cpYL (imm : Nibble)
  -- Transfer family (spec/44_transfer.md)
  /-- `LD r,i`, pattern `1110 00rr iiii` (R160). -/
  | ldRI (r : Reg) (imm : Nibble)
  /-- `LD r,q`, pattern `1110 1100 rrqq` (R161). -/
  | ldRQ (r : Reg) (q : Reg)
  /-- `LD A,Mn`, pattern `1111 1010 nnnn` (R162). -/
  | ldAMn (n : Nibble)
  /-- `LD B,Mn`, pattern `1111 1011 nnnn` (R163). -/
  | ldBMn (n : Nibble)
  /-- `LD Mn,A`, pattern `1111 1000 nnnn` (R164). -/
  | ldMnA (n : Nibble)
  /-- `LD Mn,B`, pattern `1111 1001 nnnn` (R165). -/
  | ldMnB (n : Nibble)
  /-- `LDPX MX,i`, pattern `1110 0110 iiii` (R166). -/
  | ldpxMX (imm : Nibble)
  /-- `LDPX r,q`, pattern `1110 1110 rrqq` (R167). -/
  | ldpxRQ (r : Reg) (q : Reg)
  /-- `LDPY MY,i`, pattern `1110 0111 iiii` (R168). -/
  | ldpyMY (imm : Nibble)
  /-- `LDPY r,q`, pattern `1110 1111 rrqq` (R169). -/
  | ldpyRQ (r : Reg) (q : Reg)
  /-- `LBPX MX,l`, pattern `1001 llll llll` (R170). -/
  | lbpx (l : Octet)
  -- Flag family (spec/45_flag.md)
  /-- `SCF`, pattern `1111 0100 0001` (R182). -/
  | scf
  /-- `SZF`, pattern `1111 0100 0010` (R184). -/
  | szf
  /-- `SDF`, pattern `1111 0100 0100` (R186). -/
  | sdf
  /-- `EI`, pattern `1111 0100 1000` (R188). -/
  | ei
  /-- `SET F,i`, pattern `1111 0100 iiii` (R180). -/
  | setF (imm : Nibble)
  /-- `RCF`, pattern `1111 0101 1110` (R183). -/
  | rcf
  /-- `RZF`, pattern `1111 0101 1101` (R185). -/
  | rzf
  /-- `RDF`, pattern `1111 0101 1011` (R187). -/
  | rdf
  /-- `DI`, pattern `1111 0101 0111` (R189). -/
  | di
  /-- `RST F,i`, pattern `1111 0101 iiii` (R181). -/
  | rstF (imm : Nibble)
  -- Stack family (spec/46_stack.md)
  /-- `INC SP`, pattern `1111 1101 1011` (R200). -/
  | incSP
  /-- `DEC SP`, pattern `1111 1100 1011` (R201). -/
  | decSP
  /-- `PUSH r`, pattern `1111 1100 00rr` (R202). -/
  | pushR (r : Reg)
  /-- `PUSH XP`, pattern `1111 1100 0100` (R203). -/
  | pushXP
  /-- `PUSH XH`, pattern `1111 1100 0101` (R204). -/
  | pushXH
  /-- `PUSH XL`, pattern `1111 1100 0110` (R205). -/
  | pushXL
  /-- `PUSH YP`, pattern `1111 1100 0111` (R206). -/
  | pushYP
  /-- `PUSH YH`, pattern `1111 1100 1000` (R207). -/
  | pushYH
  /-- `PUSH YL`, pattern `1111 1100 1001` (R208). -/
  | pushYL
  /-- `PUSH F`, pattern `1111 1100 1010` (R209). -/
  | pushF
  /-- `POP r`, pattern `1111 1101 00rr` (R210). -/
  | popR (r : Reg)
  /-- `POP XP`, pattern `1111 1101 0100` (R211). -/
  | popXP
  /-- `POP XH`, pattern `1111 1101 0101` (R212). -/
  | popXH
  /-- `POP XL`, pattern `1111 1101 0110` (R213). -/
  | popXL
  /-- `POP YP`, pattern `1111 1101 0111` (R214). -/
  | popYP
  /-- `POP YH`, pattern `1111 1101 1000` (R215). -/
  | popYH
  /-- `POP YL`, pattern `1111 1101 1001` (R216). -/
  | popYL
  /-- `POP F`, pattern `1111 1101 1010` (R217). -/
  | popF
  /-- `LD SPH,r`, pattern `1111 1110 00rr` (R218). -/
  | ldSPHr (r : Reg)
  /-- `LD SPL,r`, pattern `1111 1111 00rr` (R219). -/
  | ldSPLr (r : Reg)
  /-- `LD r,SPH`, pattern `1111 1110 01rr` (R220). -/
  | ldrSPH (r : Reg)
  /-- `LD r,SPL`, pattern `1111 1111 01rr` (R221). -/
  | ldrSPL (r : Reg)
  -- Arithmetic and logic family (spec/47_arith.md)
  /-- `ADD r,i`, pattern `1100 00rr iiii` (R230). -/
  | addRI (r : Reg) (imm : Nibble)
  /-- `ADD r,q`, pattern `1010 1000 rrqq` (R231). -/
  | addRQ (r : Reg) (q : Reg)
  /-- `ADC r,i`, pattern `1100 01rr iiii` (R232). -/
  | adcRI (r : Reg) (imm : Nibble)
  /-- `ADC r,q`, pattern `1010 1001 rrqq` (R233). -/
  | adcRQ (r : Reg) (q : Reg)
  /-- `SUB r,q`, pattern `1010 1010 rrqq` (R234). -/
  | subRQ (r : Reg) (q : Reg)
  /-- `SBC r,i`, pattern `1101 01rr iiii` (R235). -/
  | sbcRI (r : Reg) (imm : Nibble)
  /-- `SBC r,q`, pattern `1010 1011 rrqq` (R236). -/
  | sbcRQ (r : Reg) (q : Reg)
  /-- `AND r,i`, pattern `1100 10rr iiii` (R237). -/
  | andRI (r : Reg) (imm : Nibble)
  /-- `AND r,q`, pattern `1010 1100 rrqq` (R238). -/
  | andRQ (r : Reg) (q : Reg)
  /-- `OR r,i`, pattern `1100 11rr iiii` (R239). -/
  | orRI (r : Reg) (imm : Nibble)
  /-- `OR r,q`, pattern `1010 1101 rrqq` (R240). -/
  | orRQ (r : Reg) (q : Reg)
  /-- `NOT r`, pattern `1101 00rr 1111` (R255). -/
  | notR (r : Reg)
  /-- `XOR r,i`, pattern `1101 00rr iiii` (R241). -/
  | xorRI (r : Reg) (imm : Nibble)
  /-- `XOR r,q`, pattern `1010 1110 rrqq` (R242). -/
  | xorRQ (r : Reg) (q : Reg)
  /-- `CP r,i`, pattern `1101 11rr iiii` (R243). -/
  | cpRI (r : Reg) (imm : Nibble)
  /-- `CP r,q`, pattern `1111 0000 rrqq` (R244). -/
  | cpRQ (r : Reg) (q : Reg)
  /-- `FAN r,i`, pattern `1101 10rr iiii` (R245). -/
  | fanRI (r : Reg) (imm : Nibble)
  /-- `FAN r,q`, pattern `1111 0001 rrqq` (R246). -/
  | fanRQ (r : Reg) (q : Reg)
  /-- `RLC r`, pattern `1010 1111 ddrr` (R247). -/
  | rlc (d : BitVec 2) (r : Reg)
  /-- `RRC r`, pattern `1110 1000 11rr` (R248). -/
  | rrc (r : Reg)
  /-- `INC Mn`, pattern `1111 0110 nnnn` (R249). -/
  | incMn (n : Nibble)
  /-- `DEC Mn`, pattern `1111 0111 nnnn` (R250). -/
  | decMn (n : Nibble)
  /-- `ACPX MX,r`, pattern `1111 0010 10rr` (R251). -/
  | acpx (r : Reg)
  /-- `ACPY MY,r`, pattern `1111 0010 11rr` (R252). -/
  | acpy (r : Reg)
  /-- `SCPX MX,r`, pattern `1111 0011 10rr` (R253). -/
  | scpx (r : Reg)
  /-- `SCPY MY,r`, pattern `1111 0011 11rr` (R254). -/
  | scpy (r : Reg)
deriving DecidableEq, Repr

end Sys2Proof
end

