-- ==== Sys2Proof/WellFormed.lean ====
section
/-! DEFINITION. Which instruction terms have a word of their own. The type of an instruction already bounds every
operand; what is left is that fourteen words match two descriptors and decode to the earlier one
(spec/30_encoding.md R67), so the later descriptor has no word with those operands. (Log entry 13.) -/

namespace Sys2Proof

/-- An instruction whose own word decodes to it: it is none of the fourteen shadowed forms of R67. -/
def Instr.wellFormed : Instr → Bool
  | .pset _ => true
  | .jp _ => true
  | .jpC _ => true
  | .jpNC _ => true
  | .jpZ _ => true
  | .jpNZ _ => true
  | .jpba => true
  | .call _ => true
  | .calz _ => true
  | .ret => true
  | .rets => true
  | .retd _ => true
  | .nop5 => true
  | .nop7 => true
  | .halt => true
  | .slp => true
  | .incX => true
  | .incY => true
  | .ldXi _ => true
  | .ldYi _ => true
  | .ldXPr _ => true
  | .ldXHr _ => true
  | .ldXLr _ => true
  | .ldYPr _ => true
  | .ldYHr _ => true
  | .ldYLr _ => true
  | .ldrXP _ => true
  | .ldrXH _ => true
  | .ldrXL _ => true
  | .ldrYP _ => true
  | .ldrYH _ => true
  | .ldrYL _ => true
  | .adcXH _ => true
  | .adcXL _ => true
  | .adcYH _ => true
  | .adcYL _ => true
  | .cpXH _ => true
  | .cpXL _ => true
  | .cpYH _ => true
  | .cpYL _ => true
  | .ldRI _ _ => true
  | .ldRQ _ _ => true
  | .ldAMn _ => true
  | .ldBMn _ => true
  | .ldMnA _ => true
  | .ldMnB _ => true
  | .ldpxMX _ => true
  | .ldpxRQ r q => !(r == .a && q == .a)
  | .ldpyMY _ => true
  | .ldpyRQ r q => !(r == .a && q == .a)
  | .lbpx _ => true
  | .scf => true
  | .szf => true
  | .sdf => true
  | .ei => true
  | .setF imm => !(imm == 1 || imm == 2 || imm == 4 || imm == 8)
  | .rcf => true
  | .rzf => true
  | .rdf => true
  | .di => true
  | .rstF imm => !(imm == 0xE || imm == 0xD || imm == 0xB || imm == 0x7)
  | .incSP => true
  | .decSP => true
  | .pushR _ => true
  | .pushXP => true
  | .pushXH => true
  | .pushXL => true
  | .pushYP => true
  | .pushYH => true
  | .pushYL => true
  | .pushF => true
  | .popR _ => true
  | .popXP => true
  | .popXH => true
  | .popXL => true
  | .popYP => true
  | .popYH => true
  | .popYL => true
  | .popF => true
  | .ldSPHr _ => true
  | .ldSPLr _ => true
  | .ldrSPH _ => true
  | .ldrSPL _ => true
  | .addRI _ _ => true
  | .addRQ _ _ => true
  | .adcRI _ _ => true
  | .adcRQ _ _ => true
  | .subRQ _ _ => true
  | .sbcRI _ _ => true
  | .sbcRQ _ _ => true
  | .andRI _ _ => true
  | .andRQ _ _ => true
  | .orRI _ _ => true
  | .orRQ _ _ => true
  | .notR _ => true
  | .xorRI _ imm => imm != 0xF
  | .xorRQ _ _ => true
  | .cpRI _ _ => true
  | .cpRQ _ _ => true
  | .fanRI _ _ => true
  | .fanRQ _ _ => true
  | .rlc _ _ => true
  | .rrc _ => true
  | .incMn _ => true
  | .decMn _ => true
  | .acpx _ => true
  | .acpy _ => true
  | .scpx _ => true
  | .scpy _ => true

end Sys2Proof
end

