-- ==== Sys2Proof/Decode.lean ====
section
/-! DEFINITION. Decoding and encoding (spec/30_encoding.md). The decoder is the spec's mechanism: an ordered table
of descriptors, first match wins (R62), arguments extracted by R63. The encoder lays each operand at the bit
position the pattern of R66 gives it. -/

namespace Sys2Proof

/-- The operand a 2-bit register-select field names (spec/10_state.md R13). -/
def Reg.ofCode (c : BitVec 2) : Reg :=
  if c = 0 then .a else if c = 1 then .b else if c = 2 then .mx else .my

/-- The code of an operand in a 2-bit register-select field (R13). -/
def Reg.code : Reg → BitVec 2
  | .a => 0
  | .b => 1
  | .mx => 2
  | .my => 3

/-- A descriptor of the opcode table (R61): pattern, secondary argument field, declared cycle cost, and the
instruction it stands for, given the two arguments of R63. -/
structure Descriptor where
  mnemonic  : String
  code      : InstrWord
  mask      : InstrWord
  maskArg0  : InstrWord
  shiftArg0 : Nat
  cycles    : Nat
  build     : BitVec 12 → BitVec 12 → Instr

/-- Branch family of the opcode table, rows 0 to 11 (R66). -/
def branchRows : List Descriptor := [
  ⟨"PSET_p", 0xE40, 0xFE0, 0x000, 0, 5, fun a _ => .pset (a.setWidth 5)⟩,
  ⟨"JP_s", 0x000, 0xF00, 0x000, 0, 5, fun a _ => .jp (a.setWidth 8)⟩,
  ⟨"JP_C_s", 0x200, 0xF00, 0x000, 0, 5, fun a _ => .jpC (a.setWidth 8)⟩,
  ⟨"JP_NC_s", 0x300, 0xF00, 0x000, 0, 5, fun a _ => .jpNC (a.setWidth 8)⟩,
  ⟨"JP_Z_s", 0x600, 0xF00, 0x000, 0, 5, fun a _ => .jpZ (a.setWidth 8)⟩,
  ⟨"JP_NZ_s", 0x700, 0xF00, 0x000, 0, 5, fun a _ => .jpNZ (a.setWidth 8)⟩,
  ⟨"JPBA", 0xFE8, 0xFFF, 0x000, 0, 5, fun _ _ => .jpba⟩,
  ⟨"CALL_s", 0x400, 0xF00, 0x000, 0, 7, fun a _ => .call (a.setWidth 8)⟩,
  ⟨"CALZ_s", 0x500, 0xF00, 0x000, 0, 7, fun a _ => .calz (a.setWidth 8)⟩,
  ⟨"RET", 0xFDF, 0xFFF, 0x000, 0, 7, fun _ _ => .ret⟩,
  ⟨"RETS", 0xFDE, 0xFFF, 0x000, 0, 12, fun _ _ => .rets⟩,
  ⟨"RETD_l", 0x100, 0xF00, 0x000, 0, 12, fun a _ => .retd (a.setWidth 8)⟩]

/-- System family of the opcode table, rows 12 to 15 (R66). -/
def systemRows : List Descriptor := [
  ⟨"NOP5", 0xFFB, 0xFFF, 0x000, 0, 5, fun _ _ => .nop5⟩,
  ⟨"NOP7", 0xFFF, 0xFFF, 0x000, 0, 7, fun _ _ => .nop7⟩,
  ⟨"HALT", 0xFF8, 0xFFF, 0x000, 0, 5, fun _ _ => .halt⟩,
  ⟨"SLP", 0xFF9, 0xFFF, 0x000, 0, 5, fun _ _ => .slp⟩]

/-- Index-register family of the opcode table, rows 16 to 28 (R66). -/
def indexRowsA : List Descriptor := [
  ⟨"INC_X", 0xEE0, 0xFFF, 0x000, 0, 5, fun _ _ => .incX⟩,
  ⟨"INC_Y", 0xEF0, 0xFFF, 0x000, 0, 5, fun _ _ => .incY⟩,
  ⟨"LD_X_x", 0xB00, 0xF00, 0x000, 0, 5, fun a _ => .ldXi (a.setWidth 8)⟩,
  ⟨"LD_Y_y", 0x800, 0xF00, 0x000, 0, 5, fun a _ => .ldYi (a.setWidth 8)⟩,
  ⟨"LD_XP_r", 0xE80, 0xFFC, 0x000, 0, 5, fun a _ => .ldXPr (Reg.ofCode (a.setWidth 2))⟩,
  ⟨"LD_XH_r", 0xE84, 0xFFC, 0x000, 0, 5, fun a _ => .ldXHr (Reg.ofCode (a.setWidth 2))⟩,
  ⟨"LD_XL_r", 0xE88, 0xFFC, 0x000, 0, 5, fun a _ => .ldXLr (Reg.ofCode (a.setWidth 2))⟩,
  ⟨"LD_YP_r", 0xE90, 0xFFC, 0x000, 0, 5, fun a _ => .ldYPr (Reg.ofCode (a.setWidth 2))⟩,
  ⟨"LD_YH_r", 0xE94, 0xFFC, 0x000, 0, 5, fun a _ => .ldYHr (Reg.ofCode (a.setWidth 2))⟩,
  ⟨"LD_YL_r", 0xE98, 0xFFC, 0x000, 0, 5, fun a _ => .ldYLr (Reg.ofCode (a.setWidth 2))⟩,
  ⟨"LD_r_XP", 0xEA0, 0xFFC, 0x000, 0, 5, fun a _ => .ldrXP (Reg.ofCode (a.setWidth 2))⟩,
  ⟨"LD_r_XH", 0xEA4, 0xFFC, 0x000, 0, 5, fun a _ => .ldrXH (Reg.ofCode (a.setWidth 2))⟩,
  ⟨"LD_r_XL", 0xEA8, 0xFFC, 0x000, 0, 5, fun a _ => .ldrXL (Reg.ofCode (a.setWidth 2))⟩]

/-- Index-register family of the opcode table, rows 29 to 39 (R66). -/
def indexRowsB : List Descriptor := [
  ⟨"LD_r_YP", 0xEB0, 0xFFC, 0x000, 0, 5, fun a _ => .ldrYP (Reg.ofCode (a.setWidth 2))⟩,
  ⟨"LD_r_YH", 0xEB4, 0xFFC, 0x000, 0, 5, fun a _ => .ldrYH (Reg.ofCode (a.setWidth 2))⟩,
  ⟨"LD_r_YL", 0xEB8, 0xFFC, 0x000, 0, 5, fun a _ => .ldrYL (Reg.ofCode (a.setWidth 2))⟩,
  ⟨"ADC_XH_i", 0xA00, 0xFF0, 0x000, 0, 7, fun a _ => .adcXH (a.setWidth 4)⟩,
  ⟨"ADC_XL_i", 0xA10, 0xFF0, 0x000, 0, 7, fun a _ => .adcXL (a.setWidth 4)⟩,
  ⟨"ADC_YH_i", 0xA20, 0xFF0, 0x000, 0, 7, fun a _ => .adcYH (a.setWidth 4)⟩,
  ⟨"ADC_YL_i", 0xA30, 0xFF0, 0x000, 0, 7, fun a _ => .adcYL (a.setWidth 4)⟩,
  ⟨"CP_XH_i", 0xA40, 0xFF0, 0x000, 0, 7, fun a _ => .cpXH (a.setWidth 4)⟩,
  ⟨"CP_XL_i", 0xA50, 0xFF0, 0x000, 0, 7, fun a _ => .cpXL (a.setWidth 4)⟩,
  ⟨"CP_YH_i", 0xA60, 0xFF0, 0x000, 0, 7, fun a _ => .cpYH (a.setWidth 4)⟩,
  ⟨"CP_YL_i", 0xA70, 0xFF0, 0x000, 0, 7, fun a _ => .cpYL (a.setWidth 4)⟩]

/-- Transfer family of the opcode table, rows 40 to 50 (R66). -/
def transferRows : List Descriptor := [
  ⟨"LD_r_i", 0xE00, 0xFC0, 0x030, 4, 5, fun a b => .ldRI (Reg.ofCode (a.setWidth 2)) (b.setWidth 4)⟩,
  ⟨"LD_r_q", 0xEC0, 0xFF0, 0x00C, 2, 5, fun a b => .ldRQ (Reg.ofCode (a.setWidth 2)) (Reg.ofCode (b.setWidth 2))⟩,
  ⟨"LD_A_Mn", 0xFA0, 0xFF0, 0x000, 0, 5, fun a _ => .ldAMn (a.setWidth 4)⟩,
  ⟨"LD_B_Mn", 0xFB0, 0xFF0, 0x000, 0, 5, fun a _ => .ldBMn (a.setWidth 4)⟩,
  ⟨"LD_Mn_A", 0xF80, 0xFF0, 0x000, 0, 5, fun a _ => .ldMnA (a.setWidth 4)⟩,
  ⟨"LD_Mn_B", 0xF90, 0xFF0, 0x000, 0, 5, fun a _ => .ldMnB (a.setWidth 4)⟩,
  ⟨"LDPX_MX_i", 0xE60, 0xFF0, 0x000, 0, 5, fun a _ => .ldpxMX (a.setWidth 4)⟩,
  ⟨"LDPX_r_q", 0xEE0, 0xFF0, 0x00C, 2, 5, fun a b => .ldpxRQ (Reg.ofCode (a.setWidth 2)) (Reg.ofCode (b.setWidth 2))⟩,
  ⟨"LDPY_MY_i", 0xE70, 0xFF0, 0x000, 0, 5, fun a _ => .ldpyMY (a.setWidth 4)⟩,
  ⟨"LDPY_r_q", 0xEF0, 0xFF0, 0x00C, 2, 5, fun a b => .ldpyRQ (Reg.ofCode (a.setWidth 2)) (Reg.ofCode (b.setWidth 2))⟩,
  ⟨"LBPX_MX_l", 0x900, 0xF00, 0x000, 0, 5, fun a _ => .lbpx (a.setWidth 8)⟩]

/-- Flag family of the opcode table, rows 51 to 60 (R66). -/
def flagRows : List Descriptor := [
  ⟨"SCF", 0xF41, 0xFFF, 0x000, 0, 7, fun _ _ => .scf⟩,
  ⟨"SZF", 0xF42, 0xFFF, 0x000, 0, 7, fun _ _ => .szf⟩,
  ⟨"SDF", 0xF44, 0xFFF, 0x000, 0, 7, fun _ _ => .sdf⟩,
  ⟨"EI", 0xF48, 0xFFF, 0x000, 0, 7, fun _ _ => .ei⟩,
  ⟨"SET_F_i", 0xF40, 0xFF0, 0x000, 0, 7, fun a _ => .setF (a.setWidth 4)⟩,
  ⟨"RCF", 0xF5E, 0xFFF, 0x000, 0, 7, fun _ _ => .rcf⟩,
  ⟨"RZF", 0xF5D, 0xFFF, 0x000, 0, 7, fun _ _ => .rzf⟩,
  ⟨"RDF", 0xF5B, 0xFFF, 0x000, 0, 7, fun _ _ => .rdf⟩,
  ⟨"DI", 0xF57, 0xFFF, 0x000, 0, 7, fun _ _ => .di⟩,
  ⟨"RST_F_i", 0xF50, 0xFF0, 0x000, 0, 7, fun a _ => .rstF (a.setWidth 4)⟩]

/-- Stack family of the opcode table, rows 61 to 73 (R66). -/
def stackRowsA : List Descriptor := [
  ⟨"INC_SP", 0xFDB, 0xFFF, 0x000, 0, 5, fun _ _ => .incSP⟩,
  ⟨"DEC_SP", 0xFCB, 0xFFF, 0x000, 0, 5, fun _ _ => .decSP⟩,
  ⟨"PUSH_r", 0xFC0, 0xFFC, 0x000, 0, 5, fun a _ => .pushR (Reg.ofCode (a.setWidth 2))⟩,
  ⟨"PUSH_XP", 0xFC4, 0xFFF, 0x000, 0, 5, fun _ _ => .pushXP⟩,
  ⟨"PUSH_XH", 0xFC5, 0xFFF, 0x000, 0, 5, fun _ _ => .pushXH⟩,
  ⟨"PUSH_XL", 0xFC6, 0xFFF, 0x000, 0, 5, fun _ _ => .pushXL⟩,
  ⟨"PUSH_YP", 0xFC7, 0xFFF, 0x000, 0, 5, fun _ _ => .pushYP⟩,
  ⟨"PUSH_YH", 0xFC8, 0xFFF, 0x000, 0, 5, fun _ _ => .pushYH⟩,
  ⟨"PUSH_YL", 0xFC9, 0xFFF, 0x000, 0, 5, fun _ _ => .pushYL⟩,
  ⟨"PUSH_F", 0xFCA, 0xFFF, 0x000, 0, 5, fun _ _ => .pushF⟩,
  ⟨"POP_r", 0xFD0, 0xFFC, 0x000, 0, 5, fun a _ => .popR (Reg.ofCode (a.setWidth 2))⟩,
  ⟨"POP_XP", 0xFD4, 0xFFF, 0x000, 0, 5, fun _ _ => .popXP⟩,
  ⟨"POP_XH", 0xFD5, 0xFFF, 0x000, 0, 5, fun _ _ => .popXH⟩]

/-- Stack family of the opcode table, rows 74 to 82 (R66). -/
def stackRowsB : List Descriptor := [
  ⟨"POP_XL", 0xFD6, 0xFFF, 0x000, 0, 5, fun _ _ => .popXL⟩,
  ⟨"POP_YP", 0xFD7, 0xFFF, 0x000, 0, 5, fun _ _ => .popYP⟩,
  ⟨"POP_YH", 0xFD8, 0xFFF, 0x000, 0, 5, fun _ _ => .popYH⟩,
  ⟨"POP_YL", 0xFD9, 0xFFF, 0x000, 0, 5, fun _ _ => .popYL⟩,
  ⟨"POP_F", 0xFDA, 0xFFF, 0x000, 0, 5, fun _ _ => .popF⟩,
  ⟨"LD_SPH_r", 0xFE0, 0xFFC, 0x000, 0, 5, fun a _ => .ldSPHr (Reg.ofCode (a.setWidth 2))⟩,
  ⟨"LD_SPL_r", 0xFF0, 0xFFC, 0x000, 0, 5, fun a _ => .ldSPLr (Reg.ofCode (a.setWidth 2))⟩,
  ⟨"LD_r_SPH", 0xFE4, 0xFFC, 0x000, 0, 5, fun a _ => .ldrSPH (Reg.ofCode (a.setWidth 2))⟩,
  ⟨"LD_r_SPL", 0xFF4, 0xFFC, 0x000, 0, 5, fun a _ => .ldrSPL (Reg.ofCode (a.setWidth 2))⟩]

/-- Arithmetic and logic family of the opcode table, rows 83 to 95 (R66). -/
def arithRowsA : List Descriptor := [
  ⟨"ADD_r_i", 0xC00, 0xFC0, 0x030, 4, 7, fun a b => .addRI (Reg.ofCode (a.setWidth 2)) (b.setWidth 4)⟩,
  ⟨"ADD_r_q", 0xA80, 0xFF0, 0x00C, 2, 7, fun a b => .addRQ (Reg.ofCode (a.setWidth 2)) (Reg.ofCode (b.setWidth 2))⟩,
  ⟨"ADC_r_i", 0xC40, 0xFC0, 0x030, 4, 7, fun a b => .adcRI (Reg.ofCode (a.setWidth 2)) (b.setWidth 4)⟩,
  ⟨"ADC_r_q", 0xA90, 0xFF0, 0x00C, 2, 7, fun a b => .adcRQ (Reg.ofCode (a.setWidth 2)) (Reg.ofCode (b.setWidth 2))⟩,
  ⟨"SUB_r_q", 0xAA0, 0xFF0, 0x00C, 2, 7, fun a b => .subRQ (Reg.ofCode (a.setWidth 2)) (Reg.ofCode (b.setWidth 2))⟩,
  ⟨"SBC_r_i", 0xD40, 0xFC0, 0x030, 4, 7, fun a b => .sbcRI (Reg.ofCode (a.setWidth 2)) (b.setWidth 4)⟩,
  ⟨"SBC_r_q", 0xAB0, 0xFF0, 0x00C, 2, 7, fun a b => .sbcRQ (Reg.ofCode (a.setWidth 2)) (Reg.ofCode (b.setWidth 2))⟩,
  ⟨"AND_r_i", 0xC80, 0xFC0, 0x030, 4, 7, fun a b => .andRI (Reg.ofCode (a.setWidth 2)) (b.setWidth 4)⟩,
  ⟨"AND_r_q", 0xAC0, 0xFF0, 0x00C, 2, 7, fun a b => .andRQ (Reg.ofCode (a.setWidth 2)) (Reg.ofCode (b.setWidth 2))⟩,
  ⟨"OR_r_i", 0xCC0, 0xFC0, 0x030, 4, 7, fun a b => .orRI (Reg.ofCode (a.setWidth 2)) (b.setWidth 4)⟩,
  ⟨"OR_r_q", 0xAD0, 0xFF0, 0x00C, 2, 7, fun a b => .orRQ (Reg.ofCode (a.setWidth 2)) (Reg.ofCode (b.setWidth 2))⟩,
  ⟨"NOT_r", 0xD0F, 0xFCF, 0x000, 4, 7, fun a _ => .notR (Reg.ofCode (a.setWidth 2))⟩,
  ⟨"XOR_r_i", 0xD00, 0xFC0, 0x030, 4, 7, fun a b => .xorRI (Reg.ofCode (a.setWidth 2)) (b.setWidth 4)⟩]

/-- Arithmetic and logic family of the opcode table, rows 96 to 108 (R66). -/
def arithRowsB : List Descriptor := [
  ⟨"XOR_r_q", 0xAE0, 0xFF0, 0x00C, 2, 7, fun a b => .xorRQ (Reg.ofCode (a.setWidth 2)) (Reg.ofCode (b.setWidth 2))⟩,
  ⟨"CP_r_i", 0xDC0, 0xFC0, 0x030, 4, 7, fun a b => .cpRI (Reg.ofCode (a.setWidth 2)) (b.setWidth 4)⟩,
  ⟨"CP_r_q", 0xF00, 0xFF0, 0x00C, 2, 7, fun a b => .cpRQ (Reg.ofCode (a.setWidth 2)) (Reg.ofCode (b.setWidth 2))⟩,
  ⟨"FAN_r_i", 0xD80, 0xFC0, 0x030, 4, 7, fun a b => .fanRI (Reg.ofCode (a.setWidth 2)) (b.setWidth 4)⟩,
  ⟨"FAN_r_q", 0xF10, 0xFF0, 0x00C, 2, 7, fun a b => .fanRQ (Reg.ofCode (a.setWidth 2)) (Reg.ofCode (b.setWidth 2))⟩,
  ⟨"RLC_r", 0xAF0, 0xFF0, 0x000, 0, 7, fun a _ => .rlc (a.extractLsb' 2 2) (Reg.ofCode (a.setWidth 2))⟩,
  ⟨"RRC_r", 0xE8C, 0xFFC, 0x000, 0, 5, fun a _ => .rrc (Reg.ofCode (a.setWidth 2))⟩,
  ⟨"INC_Mn", 0xF60, 0xFF0, 0x000, 0, 7, fun a _ => .incMn (a.setWidth 4)⟩,
  ⟨"DEC_Mn", 0xF70, 0xFF0, 0x000, 0, 7, fun a _ => .decMn (a.setWidth 4)⟩,
  ⟨"ACPX_MX_r", 0xF28, 0xFFC, 0x000, 0, 7, fun a _ => .acpx (Reg.ofCode (a.setWidth 2))⟩,
  ⟨"ACPY_MY_r", 0xF2C, 0xFFC, 0x000, 0, 7, fun a _ => .acpy (Reg.ofCode (a.setWidth 2))⟩,
  ⟨"SCPX_MX_r", 0xF38, 0xFFC, 0x000, 0, 7, fun a _ => .scpx (Reg.ofCode (a.setWidth 2))⟩,
  ⟨"SCPY_MY_r", 0xF3C, 0xFFC, 0x000, 0, 7, fun a _ => .scpy (Reg.ofCode (a.setWidth 2))⟩]

/-- The opcode table, 109 descriptors in decode order (R66). -/
def opcodeTable : List Descriptor :=
  branchRows ++ systemRows ++ indexRowsA ++ indexRowsB ++ transferRows ++ flagRows ++ stackRowsA ++ stackRowsB ++ arithRowsA ++ arithRowsB

/-- `extract_args` (R63). -/
def extractArgs (w : InstrWord) (d : Descriptor) : BitVec 12 × BitVec 12 :=
  if d.maskArg0 ≠ 0 then
    ((w &&& d.maskArg0) >>> d.shiftArg0, w &&& ~~~(d.mask ||| d.maskArg0))
  else
    ((w &&& ~~~d.mask) >>> d.shiftArg0, 0)

/-- Does a descriptor match a word? (R62) -/
def Descriptor.matchesWord (d : Descriptor) (w : InstrWord) : Bool :=
  w &&& d.mask == d.code

/-- Why a word does not decode: it matches no descriptor (R68). -/
inductive DecodeError where
  | noDescriptor (w : InstrWord)
deriving DecidableEq, Repr

/-- `decode` (R62): the first descriptor that matches, with its arguments. It depends on the word alone. -/
def decode (w : InstrWord) : Except DecodeError Instr :=
  match opcodeTable.find? (fun d => d.matchesWord w) with
  | some d => .ok (d.build (extractArgs w d).1 (extractArgs w d).2)
  | none => .error (.noDescriptor w)

/-- An operand of a word, at the bit position its pattern gives it. -/
def place {n : Nat} (v : BitVec n) (lo : Nat) : InstrWord :=
  (v.setWidth 12) <<< lo

/-- The word of an instruction, from the patterns of R66. -/
def encode : Instr → InstrWord
  | .pset p => 0xE40#12 ||| place p 0
  | .jp dest => 0x000#12 ||| place dest 0
  | .jpC dest => 0x200#12 ||| place dest 0
  | .jpNC dest => 0x300#12 ||| place dest 0
  | .jpZ dest => 0x600#12 ||| place dest 0
  | .jpNZ dest => 0x700#12 ||| place dest 0
  | .jpba => 0xFE8#12
  | .call dest => 0x400#12 ||| place dest 0
  | .calz dest => 0x500#12 ||| place dest 0
  | .ret => 0xFDF#12
  | .rets => 0xFDE#12
  | .retd l => 0x100#12 ||| place l 0
  | .nop5 => 0xFFB#12
  | .nop7 => 0xFFF#12
  | .halt => 0xFF8#12
  | .slp => 0xFF9#12
  | .incX => 0xEE0#12
  | .incY => 0xEF0#12
  | .ldXi v => 0xB00#12 ||| place v 0
  | .ldYi v => 0x800#12 ||| place v 0
  | .ldXPr r => 0xE80#12 ||| place r.code 0
  | .ldXHr r => 0xE84#12 ||| place r.code 0
  | .ldXLr r => 0xE88#12 ||| place r.code 0
  | .ldYPr r => 0xE90#12 ||| place r.code 0
  | .ldYHr r => 0xE94#12 ||| place r.code 0
  | .ldYLr r => 0xE98#12 ||| place r.code 0
  | .ldrXP r => 0xEA0#12 ||| place r.code 0
  | .ldrXH r => 0xEA4#12 ||| place r.code 0
  | .ldrXL r => 0xEA8#12 ||| place r.code 0
  | .ldrYP r => 0xEB0#12 ||| place r.code 0
  | .ldrYH r => 0xEB4#12 ||| place r.code 0
  | .ldrYL r => 0xEB8#12 ||| place r.code 0
  | .adcXH imm => 0xA00#12 ||| place imm 0
  | .adcXL imm => 0xA10#12 ||| place imm 0
  | .adcYH imm => 0xA20#12 ||| place imm 0
  | .adcYL imm => 0xA30#12 ||| place imm 0
  | .cpXH imm => 0xA40#12 ||| place imm 0
  | .cpXL imm => 0xA50#12 ||| place imm 0
  | .cpYH imm => 0xA60#12 ||| place imm 0
  | .cpYL imm => 0xA70#12 ||| place imm 0
  | .ldRI r imm => 0xE00#12 ||| place r.code 4 ||| place imm 0
  | .ldRQ r q => 0xEC0#12 ||| place r.code 2 ||| place q.code 0
  | .ldAMn n => 0xFA0#12 ||| place n 0
  | .ldBMn n => 0xFB0#12 ||| place n 0
  | .ldMnA n => 0xF80#12 ||| place n 0
  | .ldMnB n => 0xF90#12 ||| place n 0
  | .ldpxMX imm => 0xE60#12 ||| place imm 0
  | .ldpxRQ r q => 0xEE0#12 ||| place r.code 2 ||| place q.code 0
  | .ldpyMY imm => 0xE70#12 ||| place imm 0
  | .ldpyRQ r q => 0xEF0#12 ||| place r.code 2 ||| place q.code 0
  | .lbpx l => 0x900#12 ||| place l 0
  | .scf => 0xF41#12
  | .szf => 0xF42#12
  | .sdf => 0xF44#12
  | .ei => 0xF48#12
  | .setF imm => 0xF40#12 ||| place imm 0
  | .rcf => 0xF5E#12
  | .rzf => 0xF5D#12
  | .rdf => 0xF5B#12
  | .di => 0xF57#12
  | .rstF imm => 0xF50#12 ||| place imm 0
  | .incSP => 0xFDB#12
  | .decSP => 0xFCB#12
  | .pushR r => 0xFC0#12 ||| place r.code 0
  | .pushXP => 0xFC4#12
  | .pushXH => 0xFC5#12
  | .pushXL => 0xFC6#12
  | .pushYP => 0xFC7#12
  | .pushYH => 0xFC8#12
  | .pushYL => 0xFC9#12
  | .pushF => 0xFCA#12
  | .popR r => 0xFD0#12 ||| place r.code 0
  | .popXP => 0xFD4#12
  | .popXH => 0xFD5#12
  | .popXL => 0xFD6#12
  | .popYP => 0xFD7#12
  | .popYH => 0xFD8#12
  | .popYL => 0xFD9#12
  | .popF => 0xFDA#12
  | .ldSPHr r => 0xFE0#12 ||| place r.code 0
  | .ldSPLr r => 0xFF0#12 ||| place r.code 0
  | .ldrSPH r => 0xFE4#12 ||| place r.code 0
  | .ldrSPL r => 0xFF4#12 ||| place r.code 0
  | .addRI r imm => 0xC00#12 ||| place r.code 4 ||| place imm 0
  | .addRQ r q => 0xA80#12 ||| place r.code 2 ||| place q.code 0
  | .adcRI r imm => 0xC40#12 ||| place r.code 4 ||| place imm 0
  | .adcRQ r q => 0xA90#12 ||| place r.code 2 ||| place q.code 0
  | .subRQ r q => 0xAA0#12 ||| place r.code 2 ||| place q.code 0
  | .sbcRI r imm => 0xD40#12 ||| place r.code 4 ||| place imm 0
  | .sbcRQ r q => 0xAB0#12 ||| place r.code 2 ||| place q.code 0
  | .andRI r imm => 0xC80#12 ||| place r.code 4 ||| place imm 0
  | .andRQ r q => 0xAC0#12 ||| place r.code 2 ||| place q.code 0
  | .orRI r imm => 0xCC0#12 ||| place r.code 4 ||| place imm 0
  | .orRQ r q => 0xAD0#12 ||| place r.code 2 ||| place q.code 0
  | .notR r => 0xD0F#12 ||| place r.code 4
  | .xorRI r imm => 0xD00#12 ||| place r.code 4 ||| place imm 0
  | .xorRQ r q => 0xAE0#12 ||| place r.code 2 ||| place q.code 0
  | .cpRI r imm => 0xDC0#12 ||| place r.code 4 ||| place imm 0
  | .cpRQ r q => 0xF00#12 ||| place r.code 2 ||| place q.code 0
  | .fanRI r imm => 0xD80#12 ||| place r.code 4 ||| place imm 0
  | .fanRQ r q => 0xF10#12 ||| place r.code 2 ||| place q.code 0
  | .rlc d r => 0xAF0#12 ||| place d 2 ||| place r.code 0
  | .rrc r => 0xE8C#12 ||| place r.code 0
  | .incMn n => 0xF60#12 ||| place n 0
  | .decMn n => 0xF70#12 ||| place n 0
  | .acpx r => 0xF28#12 ||| place r.code 0
  | .acpy r => 0xF2C#12 ||| place r.code 0
  | .scpx r => 0xF38#12 ||| place r.code 0
  | .scpy r => 0xF3C#12 ||| place r.code 0

/-- The declared cycle cost of an instruction (R66, spec/70_reset_and_hazards.md R360). -/
def Instr.cycles : Instr → Nat
  | .pset _ => 5
  | .jp _ => 5
  | .jpC _ => 5
  | .jpNC _ => 5
  | .jpZ _ => 5
  | .jpNZ _ => 5
  | .jpba => 5
  | .call _ => 7
  | .calz _ => 7
  | .ret => 7
  | .rets => 12
  | .retd _ => 12
  | .nop5 => 5
  | .nop7 => 7
  | .halt => 5
  | .slp => 5
  | .incX => 5
  | .incY => 5
  | .ldXi _ => 5
  | .ldYi _ => 5
  | .ldXPr _ => 5
  | .ldXHr _ => 5
  | .ldXLr _ => 5
  | .ldYPr _ => 5
  | .ldYHr _ => 5
  | .ldYLr _ => 5
  | .ldrXP _ => 5
  | .ldrXH _ => 5
  | .ldrXL _ => 5
  | .ldrYP _ => 5
  | .ldrYH _ => 5
  | .ldrYL _ => 5
  | .adcXH _ => 7
  | .adcXL _ => 7
  | .adcYH _ => 7
  | .adcYL _ => 7
  | .cpXH _ => 7
  | .cpXL _ => 7
  | .cpYH _ => 7
  | .cpYL _ => 7
  | .ldRI _ _ => 5
  | .ldRQ _ _ => 5
  | .ldAMn _ => 5
  | .ldBMn _ => 5
  | .ldMnA _ => 5
  | .ldMnB _ => 5
  | .ldpxMX _ => 5
  | .ldpxRQ _ _ => 5
  | .ldpyMY _ => 5
  | .ldpyRQ _ _ => 5
  | .lbpx _ => 5
  | .scf => 7
  | .szf => 7
  | .sdf => 7
  | .ei => 7
  | .setF _ => 7
  | .rcf => 7
  | .rzf => 7
  | .rdf => 7
  | .di => 7
  | .rstF _ => 7
  | .incSP => 5
  | .decSP => 5
  | .pushR _ => 5
  | .pushXP => 5
  | .pushXH => 5
  | .pushXL => 5
  | .pushYP => 5
  | .pushYH => 5
  | .pushYL => 5
  | .pushF => 5
  | .popR _ => 5
  | .popXP => 5
  | .popXH => 5
  | .popXL => 5
  | .popYP => 5
  | .popYH => 5
  | .popYL => 5
  | .popF => 5
  | .ldSPHr _ => 5
  | .ldSPLr _ => 5
  | .ldrSPH _ => 5
  | .ldrSPL _ => 5
  | .addRI _ _ => 7
  | .addRQ _ _ => 7
  | .adcRI _ _ => 7
  | .adcRQ _ _ => 7
  | .subRQ _ _ => 7
  | .sbcRI _ _ => 7
  | .sbcRQ _ _ => 7
  | .andRI _ _ => 7
  | .andRQ _ _ => 7
  | .orRI _ _ => 7
  | .orRQ _ _ => 7
  | .notR _ => 7
  | .xorRI _ _ => 7
  | .xorRQ _ _ => 7
  | .cpRI _ _ => 7
  | .cpRQ _ _ => 7
  | .fanRI _ _ => 7
  | .fanRQ _ _ => 7
  | .rlc _ _ => 7
  | .rrc _ => 5
  | .incMn _ => 7
  | .decMn _ => 7
  | .acpx _ => 7
  | .acpy _ => 7
  | .scpx _ => 7
  | .scpy _ => 7

/-- The position of an instruction's own row in the opcode table (R66). -/
def Instr.row : Instr → Nat
  | .pset _ => 0
  | .jp _ => 1
  | .jpC _ => 2
  | .jpNC _ => 3
  | .jpZ _ => 4
  | .jpNZ _ => 5
  | .jpba => 6
  | .call _ => 7
  | .calz _ => 8
  | .ret => 9
  | .rets => 10
  | .retd _ => 11
  | .nop5 => 12
  | .nop7 => 13
  | .halt => 14
  | .slp => 15
  | .incX => 16
  | .incY => 17
  | .ldXi _ => 18
  | .ldYi _ => 19
  | .ldXPr _ => 20
  | .ldXHr _ => 21
  | .ldXLr _ => 22
  | .ldYPr _ => 23
  | .ldYHr _ => 24
  | .ldYLr _ => 25
  | .ldrXP _ => 26
  | .ldrXH _ => 27
  | .ldrXL _ => 28
  | .ldrYP _ => 29
  | .ldrYH _ => 30
  | .ldrYL _ => 31
  | .adcXH _ => 32
  | .adcXL _ => 33
  | .adcYH _ => 34
  | .adcYL _ => 35
  | .cpXH _ => 36
  | .cpXL _ => 37
  | .cpYH _ => 38
  | .cpYL _ => 39
  | .ldRI _ _ => 40
  | .ldRQ _ _ => 41
  | .ldAMn _ => 42
  | .ldBMn _ => 43
  | .ldMnA _ => 44
  | .ldMnB _ => 45
  | .ldpxMX _ => 46
  | .ldpxRQ _ _ => 47
  | .ldpyMY _ => 48
  | .ldpyRQ _ _ => 49
  | .lbpx _ => 50
  | .scf => 51
  | .szf => 52
  | .sdf => 53
  | .ei => 54
  | .setF _ => 55
  | .rcf => 56
  | .rzf => 57
  | .rdf => 58
  | .di => 59
  | .rstF _ => 60
  | .incSP => 61
  | .decSP => 62
  | .pushR _ => 63
  | .pushXP => 64
  | .pushXH => 65
  | .pushXL => 66
  | .pushYP => 67
  | .pushYH => 68
  | .pushYL => 69
  | .pushF => 70
  | .popR _ => 71
  | .popXP => 72
  | .popXH => 73
  | .popXL => 74
  | .popYP => 75
  | .popYH => 76
  | .popYL => 77
  | .popF => 78
  | .ldSPHr _ => 79
  | .ldSPLr _ => 80
  | .ldrSPH _ => 81
  | .ldrSPL _ => 82
  | .addRI _ _ => 83
  | .addRQ _ _ => 84
  | .adcRI _ _ => 85
  | .adcRQ _ _ => 86
  | .subRQ _ _ => 87
  | .sbcRI _ _ => 88
  | .sbcRQ _ _ => 89
  | .andRI _ _ => 90
  | .andRQ _ _ => 91
  | .orRI _ _ => 92
  | .orRQ _ _ => 93
  | .notR _ => 94
  | .xorRI _ _ => 95
  | .xorRQ _ _ => 96
  | .cpRI _ _ => 97
  | .cpRQ _ _ => 98
  | .fanRI _ _ => 99
  | .fanRQ _ _ => 100
  | .rlc _ _ => 101
  | .rrc _ => 102
  | .incMn _ => 103
  | .decMn _ => 104
  | .acpx _ => 105
  | .acpy _ => 106
  | .scpx _ => 107
  | .scpy _ => 108

/-- The instruction that an instruction word given as a number decodes to. `nbits` is the row's length in whole
bytes; the machine's word has 12 bits (R60), so a number with a bit set at or above bit 12 is no word. -/
def decodeTableWord (nbits w : Nat) : Option Instr :=
  if w % 2 ^ nbits < 4096 then
    match decode (BitVec.ofNat 12 (w % 2 ^ nbits)) with
    | .ok i => some i
    | .error _ => none
  else none

end Sys2Proof
end

