-- ==== Sys2Proof/Config.lean ====
section
/-! DEFINITION. The parameters of the machine (spec/00_scope.md R4): values the source document leaves open and
the spec makes arguments of the model. They are plain data that State carries and that no step and no reset
changes (R26, R351); their default values stand in Machine/ResetValues.lean.

No free value (opaque constant) is declared: the spec gives every result, flag and register a value on every
input (R262, 93_implementation_defined.md), so there is none for the model to leave open. -/

namespace Sys2Proof

/-- A contiguous range of the data space, both ends inclusive (R40). -/
structure Range where
  lo : Nat
  hi : Nat
deriving DecidableEq, Repr

/-- The four ranges of the data space: RAM, Display-Bank-1, Display-Bank-2, I/O (R4, R17, R40). -/
structure MemoryMap where
  ram   : Range
  disp1 : Range
  disp2 : Range
  io    : Range
deriving DecidableEq, Repr

/-- The parameters of R4 that are numbers: `ROM_WORDS`, `CLK_PERIOD`, `PROG_PERIOD`, `PINS0`, `STACK_WRAP` and
the range bounds. (`ROM` and `BREAKPOINTS`, the other two, are fields of State: the host loads the one and
edits the other.) -/
structure Params where
  romWords   : Nat
  clkPeriod  : Nat
  progPeriod : Nat
  pins0      : Octet
  stackWrap  : Bool
  map        : MemoryMap
deriving DecidableEq, Repr

end Sys2Proof
end

