-- ==== Sys2Proof/Machine/ResetValues.lean ====
section
/-! DEFINITION. Default parameters (spec/00_scope.md R4) and the reset values that are not zero (spec/10_state.md
R28, spec/70_reset_and_hazards.md R350). They stand here, and not in State.lean or Config.lean, so that a later
repair can mend them. -/

namespace Sys2Proof.Machine

/-- The default data ranges (R4, R40): RAM 0x000..0x27F, display banks 0xE00..0xE4F and 0xE80..0xECF, I/O
0xF00..0xF7F. -/
def standardMap : MemoryMap where
  ram   := ⟨0x000, 0x27F⟩
  disp1 := ⟨0xE00, 0xE4F⟩
  disp2 := ⟨0xE80, 0xECF⟩
  io    := ⟨0xF00, 0xF7F⟩

/-- The default parameters (R4): 6144 ROM words, a clock-timer period of 32768 ticks, a programmable-timer
period of 128 ticks, all input pins low at reset, a stack that wraps inside 0x00..0xFF. -/
def defaultParams : Params where
  romWords   := 6144
  clkPeriod  := 32768
  progPeriod := 128
  pins0      := 0
  stackWrap  := true
  map        := standardMap

/-- `PC` after reset: bank 0, page 1, step 0 (R28, R350). -/
def resetPc : CodeAddr := 0x0100

/-- `NP` after reset: bank 0, page 1 (R28, R350). -/
def resetNp : BankPage := 0x01

/-- What every data cell holds after reset: 0, but 0xF at 0xF54 (output port, buzzer off) and 0x8 at 0xF71 (LCD
control) (R28, R350). It is also what an address that the cell list does not list reads as. -/
def resetCell (a : Nat) : Nibble :=
  if a = 0xF54 then 0xF else if a = 0xF71 then 0x8 else 0

/-- What a ROM address that the ROM list does not list holds: 0xFFF, the erased word (R121: "0xFFF is what an
erased or unprogrammed ROM word usually holds"). DESIGN CHOICE (log entry 2). -/
def blankRomWord (_ : Nat) : InstrWord := 0xFFF

end Sys2Proof.Machine
end

