-- ==== Sys2Proof/Machine/State.lean ====
section
/-! DEFINITION. The state of the machine (spec/10_state.md), as plain data, and the state after reset. -/

namespace Sys2Proof.Machine

/-- The six interrupt slots, in slot order 0 to 5 (R19, spec/60_exceptions.md R303). -/
inductive SlotId where
  /-- slot 0: programmable timer -/
  | progTimer
  /-- slot 1: serial interface -/
  | serial
  /-- slot 2: input pins K10 to K13 -/
  | k1Pins
  /-- slot 3: input pins K00 to K03 -/
  | k0Pins
  /-- slot 4: stopwatch -/
  | stopwatch
  /-- slot 5: clock timer -/
  | clockTimer
deriving DecidableEq, Repr

/-- One slot's factor-flag nibble, mask nibble and triggered latch (R19). -/
structure SlotState where
  factor    : Nibble
  mask      : Nibble
  triggered : Bool
deriving DecidableEq, Repr

/-- The six slots (R19). -/
structure Slots where
  progTimer  : SlotState
  serial     : SlotState
  k1Pins     : SlotState
  k0Pins     : SlotState
  stopwatch  : SlotState
  clockTimer : SlotState
deriving DecidableEq, Repr

/-- The two synchronous faults of the machine (spec/60_exceptions.md R300, R301); there is no other (R302). Entering
one is a transition the spec describes in full, so a step records it in `State.run` and answers a next state
(R80, R90; log entry 4); no operation of the model answers `Outcome.fault`. -/
inductive Fault where
  /-- Raised by the decoding phase of a step for a word that matches no descriptor (R82, R300). Safe: what the silicon
  does with such a word is in no source (U1), and the machine stops. -/
  | decodeFailure (w : InstrWord)
  /-- Raised by the fetch phase of a step when `PC >= ROM_WORDS` (R81, R301). Safe: the document does not say what a
  fetch beyond the ROM gives (U2), and the machine stops. -/
  | fetchOutOfRange (a : CodeAddr)
deriving DecidableEq, Repr

/-- The reasons the model can give for having no meaning. -/
inductive Refusal where
  /-- Raised by `exec` alone, for an instruction that has no meaning yet. Safe: nothing is claimed of it. No arm of
  `exec` raises it: every row of the table has its meaning. -/
  | notModelled (mnemonic : String)
deriving DecidableEq, Repr

/-- The run state between steps (R27). -/
inductive RunState where
  /-- the machine executes -/
  | ready
  /-- `HALT` or `SLP` has executed (R122, R123); only reset leaves it -/
  | stopped
  /-- a fault has been raised (R300, R301); only reset leaves it -/
  | fault (r : Fault)
deriving DecidableEq, Repr

/-- An output of the core (spec/00_scope.md R5). -/
inductive Event where
  /-- `lcd_pin(segment, common, value)` (spec/20_memory.md R47) -/
  | lcdPin (segment common : Nat) (value : Bool)
  /-- `buzzer_enable(bit)` (R315) -/
  | buzzerEnable (on : Bool)
  /-- `buzzer_freq(value)` (R317) -/
  | buzzerFreq (select : BitVec 3)
  /-- the halt indication (R5, R122) -/
  | halt
deriving DecidableEq, Repr

/-- The state of the machine: everything R10 to R27 define, the parameters of R4, and three fields of the model's own
(`nextPc`, `outputs`, `stop`). -/
structure State where
  /-- `A` (R10) -/
  a : Nibble
  /-- `B` (R10) -/
  b : Nibble
  /-- `X` = `XP ++ XH ++ XL` (R11) -/
  x : DataAddr
  /-- `Y` = `YP ++ YH ++ YL` (R11) -/
  y : DataAddr
  /-- `SP` (R12) -/
  sp : Octet
  /-- `F` = `I ++ D ++ Z ++ C` (R14) -/
  f : Nibble
  /-- `PC` (R15) -/
  pc : CodeAddr
  /-- `NP` = `NBP ++ NPP` (R16) -/
  np : BankPage
  /-- `next_pc`, the temporary of one step (R6, R83); between steps it equals `pc` (log entry 5) -/
  nextPc : CodeAddr
  /-- the data cells (R17), listed in canonical form: see `Memory.wf` -/
  mem : List (Nat × Nibble)
  /-- `ROM` (R18, R4), listed in canonical form; no step writes it (R54) -/
  rom : List (Nat × InstrWord)
  /-- the six interrupt slots (R19) -/
  slots : Slots
  /-- `pt_reload` (R20) -/
  ptReload : Octet
  /-- `pt_data` (R20) -/
  ptData : Octet
  /-- `pt_enabled` (R20) -/
  ptEnabled : Bool
  /-- `pt_stamp` (R20) -/
  ptStamp : Nat
  /-- `clk_stamp` (R21) -/
  clkStamp : Nat
  /-- `ticks` (R22, R324) -/
  ticks : Nat
  /-- `K0`: levels of pins K00 to K03 (R23) -/
  k0 : Nibble
  /-- `K1`: levels of pins K10 to K13 (R23) -/
  k1 : Nibble
  /-- `call_depth` (R24) -/
  callDepth : Int
  /-- `run` (R27) -/
  run : RunState
  /-- `BREAKPOINTS` (R4, R332), the host's -/
  breakpoints : List CodeAddr
  /-- the parameters of R4, changed by no step and no reset (R351) -/
  params : Params
  /-- the events that have crossed the core boundary, oldest first (R5; log entry 6) -/
  outputs : List Event
  /-- the value the last step returned: true is 1, stopped (R5, R89; log entry 7) -/
  stop : Bool
deriving DecidableEq, Repr

/-- What a step and a meaning answer. -/
abbrev Result := Host.Outcome State Fault Refusal

/-- A slot's state, by slot (R19). -/
def Slots.get (s : Slots) : SlotId → SlotState
  | .progTimer => s.progTimer
  | .serial => s.serial
  | .k1Pins => s.k1Pins
  | .k0Pins => s.k0Pins
  | .stopwatch => s.stopwatch
  | .clockTimer => s.clockTimer

/-- Replace a slot's state. -/
def Slots.set (s : Slots) (i : SlotId) (v : SlotState) : Slots :=
  match i with
  | .progTimer => { s with progTimer := v }
  | .serial => { s with serial := v }
  | .k1Pins => { s with k1Pins := v }
  | .k0Pins => { s with k0Pins := v }
  | .stopwatch => { s with stopwatch := v }
  | .clockTimer => { s with clockTimer := v }

/-! One update per field; Laws/State.lean says what each leaves alone. -/

/-- Write `a`. -/
def State.setA (s : State) (v : Nibble) : State := { s with a := v }

/-- Write `b`. -/
def State.setB (s : State) (v : Nibble) : State := { s with b := v }

/-- Write `x`. -/
def State.setX (s : State) (v : DataAddr) : State := { s with x := v }

/-- Write `y`. -/
def State.setY (s : State) (v : DataAddr) : State := { s with y := v }

/-- Write `sp`. -/
def State.setSp (s : State) (v : Octet) : State := { s with sp := v }

/-- Write `f`. -/
def State.setF (s : State) (v : Nibble) : State := { s with f := v }

/-- Write `pc`. -/
def State.setPc (s : State) (v : CodeAddr) : State := { s with pc := v }

/-- Write `np`. -/
def State.setNp (s : State) (v : BankPage) : State := { s with np := v }

/-- Write `nextPc`. -/
def State.setNextPc (s : State) (v : CodeAddr) : State := { s with nextPc := v }

/-- Write `mem`. -/
def State.setMem (s : State) (v : List (Nat × Nibble)) : State := { s with mem := v }

/-- Write `rom`. -/
def State.setRom (s : State) (v : List (Nat × InstrWord)) : State := { s with rom := v }

/-- Write `slots`. -/
def State.setSlots (s : State) (v : Slots) : State := { s with slots := v }

/-- Write `ptReload`. -/
def State.setPtReload (s : State) (v : Octet) : State := { s with ptReload := v }

/-- Write `ptData`. -/
def State.setPtData (s : State) (v : Octet) : State := { s with ptData := v }

/-- Write `ptEnabled`. -/
def State.setPtEnabled (s : State) (v : Bool) : State := { s with ptEnabled := v }

/-- Write `ptStamp`. -/
def State.setPtStamp (s : State) (v : Nat) : State := { s with ptStamp := v }

/-- Write `clkStamp`. -/
def State.setClkStamp (s : State) (v : Nat) : State := { s with clkStamp := v }

/-- Write `ticks`. -/
def State.setTicks (s : State) (v : Nat) : State := { s with ticks := v }

/-- Write `k0`. -/
def State.setK0 (s : State) (v : Nibble) : State := { s with k0 := v }

/-- Write `k1`. -/
def State.setK1 (s : State) (v : Nibble) : State := { s with k1 := v }

/-- Write `callDepth`. -/
def State.setCallDepth (s : State) (v : Int) : State := { s with callDepth := v }

/-- Write `run`. -/
def State.setRun (s : State) (v : RunState) : State := { s with run := v }

/-- Write `breakpoints`. -/
def State.setBreakpoints (s : State) (v : List CodeAddr) : State := { s with breakpoints := v }

/-- Write `params`. -/
def State.setParams (s : State) (v : Params) : State := { s with params := v }

/-- Write `outputs`. -/
def State.setOutputs (s : State) (v : List Event) : State := { s with outputs := v }

/-- Write `stop`. -/
def State.setStop (s : State) (v : Bool) : State := { s with stop := v }

/-- A slot with no factor, no mask and no latch (R28). -/
def SlotState.clear : SlotState := ⟨0, 0, false⟩

/-- All six slots cleared (R28). -/
def Slots.clear : Slots := ⟨.clear, .clear, .clear, .clear, .clear, .clear⟩

/-- The state `Reset()` leaves (R28, spec/70_reset_and_hazards.md R350), given what reset does not change: the ROM, the
breakpoints, the parameters (R351) and the events already output. -/
def State.afterReset (rom : List (Nat × InstrWord)) (breakpoints : List CodeAddr) (params : Params)
    (outputs : List Event) : State where
  a := 0
  b := 0
  x := 0
  y := 0
  sp := 0
  f := 0
  pc := resetPc
  np := resetNp
  nextPc := resetPc
  mem := []
  rom := rom
  slots := .clear
  ptReload := 0
  ptData := 0
  ptEnabled := false
  ptStamp := 0
  clkStamp := 0
  ticks := 0
  k0 := params.pins0.extractLsb' 0 4
  k1 := params.pins0.extractLsb' 4 4
  callDepth := 0
  run := .ready
  breakpoints := breakpoints
  params := params
  outputs := outputs
  stop := false

/-- The machine right after reset, with the default parameters of R4, no program loaded (log entry 1) and no
breakpoint. No cell is listed: an unlisted cell reads as its reset contents (`resetCell`, R28). -/
def State.reset : State := .afterReset [] [] defaultParams []

end Sys2Proof.Machine
end

