-- ==== Sys2Proof/Machine/Fields.lean ====
section
/-! DEFINITION. The nibble fields of the wider registers (spec/00_scope.md R6, spec/10_state.md R11, R12, R15, R16). -/

namespace Sys2Proof.Machine

/-! ### Index registers: page, high, low (R11) -/

/-- `XP` or `YP`: bits 11..8. -/
def idxPage (v : DataAddr) : Nibble := v.extractLsb' 8 4

/-- `XH` or `YH`: bits 7..4. -/
def idxHigh (v : DataAddr) : Nibble := v.extractLsb' 4 4

/-- `XL` or `YL`: bits 3..0. -/
def idxLow (v : DataAddr) : Nibble := v.extractLsb' 0 4

/-- `XHL` or `YHL`: bits 7..0. -/
def idxHL (v : DataAddr) : Octet := v.extractLsb' 0 8

/-- An index register from its page and its low 8 bits. -/
def idxOfPageHL (p : Nibble) (hl : Octet) : DataAddr := p ++ hl

/-- An index register from its three nibbles. -/
def idxOfNibbles (p h l : Nibble) : DataAddr := p ++ h ++ l

/-- Replace the page nibble; the others are unchanged (R134, R137). -/
def idxSetPage (v : DataAddr) (n : Nibble) : DataAddr := idxOfNibbles n (idxHigh v) (idxLow v)

/-- Replace the high nibble. -/
def idxSetHigh (v : DataAddr) (n : Nibble) : DataAddr := idxOfNibbles (idxPage v) n (idxLow v)

/-- Replace the low nibble. -/
def idxSetLow (v : DataAddr) (n : Nibble) : DataAddr := idxOfNibbles (idxPage v) (idxHigh v) n

/-- `XP ++ ((XHL + n) mod 256)`: the page never changes (R11, D15). -/
def idxAdd (v : DataAddr) (n : Octet) : DataAddr := idxOfPageHL (idxPage v) (idxHL v + n)

/-! ### Stack pointer (R12) -/

/-- `SPH`: bits 7..4. -/
def spHigh (v : Octet) : Nibble := v.extractLsb' 4 4

/-- `SPL`: bits 3..0. -/
def spLow (v : Octet) : Nibble := v.extractLsb' 0 4

/-- Replace `SPH`. -/
def spSetHigh (v : Octet) (n : Nibble) : Octet := n ++ spLow v

/-- Replace `SPL`. -/
def spSetLow (v : Octet) (n : Nibble) : Octet := spHigh v ++ n

/-! ### Program counter and new-page pointer (R15, R16) -/

/-- `PCB`: bit 12. -/
def pcBank (v : CodeAddr) : BitVec 1 := v.extractLsb' 12 1

/-- `PC[12:8]`: bank and page, the width of `NP`. -/
def pcBankPage (v : CodeAddr) : BankPage := v.extractLsb' 8 5

/-- `NBP`: bit 4. -/
def npBank (v : BankPage) : BitVec 1 := v.extractLsb' 4 1

/-- `NPP`: bits 3..0. -/
def npPage (v : BankPage) : Nibble := v.extractLsb' 0 4

/-- `NP ++ s` (R101). -/
def codeAddrOfNp (np : BankPage) (s : Octet) : CodeAddr := np ++ s

/-- Bank, page and step together (R107, R108, R306). -/
def codeAddrOf (bank : BitVec 1) (page : Nibble) (s : Octet) : CodeAddr := bank ++ page ++ s

/-- Bank and page together (R306). -/
def bankPageOf (bank : BitVec 1) (page : Nibble) : BankPage := bank ++ page

end Sys2Proof.Machine
end

