-- ==== Sys2Proof/Machine/Flags.lean ====
section
/-! DEFINITION. The flag register and every flag computation: `C = F[0]`, `Z = F[1]`, `D = F[2]`, `I = F[3]`
(spec/10_state.md R14), the adder and the subtractor with decimal correction (spec/47_arith.md R260, R261), the
comparison, and the rotations. -/

namespace Sys2Proof.Machine

/-! ### The four bits of `F` (R14) -/

/-- `C`, carry or borrow: bit 0. -/
def State.flagC (s : State) : Bool := s.f.getLsbD 0

/-- `Z`, zero: bit 1. -/
def State.flagZ (s : State) : Bool := s.f.getLsbD 1

/-- `D`, decimal mode: bit 2. -/
def State.flagD (s : State) : Bool := s.f.getLsbD 2

/-- `I`, interrupt enable: bit 3. -/
def State.flagI (s : State) : Bool := s.f.getLsbD 3

/-- `F` with the bits of `bit` made `v`, the others kept. -/
def putFlag (f bit : Nibble) (v : Bool) : Nibble :=
  if v then f ||| bit else f &&& ~~~bit

/-- The bit of `C` in `F`. -/
def bitC : Nibble := 0b0001

/-- The bit of `Z` in `F`. -/
def bitZ : Nibble := 0b0010

/-- The bit of `D` in `F`. -/
def bitD : Nibble := 0b0100

/-- The bit of `I` in `F`. -/
def bitI : Nibble := 0b1000

/-- `C <- v`. -/
def State.setC (s : State) (v : Bool) : State := s.setF (putFlag s.f bitC v)

/-- `Z <- v`. -/
def State.setZ (s : State) (v : Bool) : State := s.setF (putFlag s.f bitZ v)

/-- `D <- v`. -/
def State.setD (s : State) (v : Bool) : State := s.setF (putFlag s.f bitD v)

/-- `I <- v`. -/
def State.setI (s : State) (v : Bool) : State := s.setF (putFlag s.f bitI v)

/-- `C <- c ; Z <- z`. -/
def State.setCZ (s : State) (c z : Bool) : State := (s.setC c).setZ z

/-! ### The adder and the subtractor -/

/-- `Add4(a, b, cin, dec)` (R260): the result nibble and the carry. In decimal mode the carry is "sum >= 10" (C2). -/
def add4 (a b : Nibble) (cin dec : Bool) : Nibble × Bool :=
  let t := a.toNat + b.toNat + cin.toNat
  if dec then
    if 10 ≤ t then (BitVec.ofNat 4 (t - 10), true) else (BitVec.ofNat 4 t, false)
  else (BitVec.ofNat 4 t, decide (16 ≤ t))

/-- `Sub4(a, b, bin, dec)` (R261): the result nibble and the borrow, which is the same in both modes. -/
def sub4 (a b : Nibble) (bin dec : Bool) : Nibble × Bool :=
  let t : Int := (a.toNat : Int) - (b.toNat : Int) - (bin.toNat : Int)
  let borrow := decide (t < 0)
  let v := BitVec.ofInt 4 t
  (if dec && borrow then v - 6 else v, borrow)

/-! ### Rotations (R247, R248) -/

/-- Rotate left through carry: the new value `a[2:0] ++ C` and the new carry `a[3]` (R247). -/
def rotateLeft (a : Nibble) (c : Bool) : Nibble × Bool :=
  (a.extractLsb' 0 3 ++ BitVec.ofBool c, a.getLsbD 3)

/-- Rotate right through carry: the new value `C ++ a[3:1]` and the new carry `a[0]` (R248). -/
def rotateRight (a : Nibble) (c : Bool) : Nibble × Bool :=
  (BitVec.ofBool c ++ a.extractLsb' 1 3, a.getLsbD 0)

/-! ### Storing a flag result -/

/-- The flags of an addition or subtraction (R262): `C` the carry or borrow, `Z` whether the result is 0. -/
def State.setArithFlags (s : State) (r : Nibble × Bool) : State :=
  s.setCZ r.2 (r.1 == 0)

/-- The flags of a comparison (R243): `C <- (a < b) ; Z <- (a = b)`, unsigned. -/
def State.setCompareFlags (s : State) (a b : Nibble) : State :=
  s.setCZ (decide (a.toNat < b.toNat)) (a == b)

/-- The flag of a logic instruction (R262): `Z` alone. -/
def State.setLogicFlag (s : State) (v : Nibble) : State :=
  s.setZ (v == 0)

end Sys2Proof.Machine
end

