-- ==== Sys2Proof/Machine/Memory.lean ====
section
/-! DEFINITION. The storage under the two address spaces (spec/10_state.md R17, R18; spec/20_memory.md R40, R41): lists
of (address, value) pairs in one canonical form, and the ranges of the data space. A cell is a nibble, one element
for each logical address, as R56 prefers (log entry 10). -/

namespace Sys2Proof.Machine

/-! ### Sparse storage -/

/-- The value at address `a` of a list in canonical form: an unlisted address holds `d a`. -/
def sparseRead {α : Type} (d : Nat → α) : List (Nat × α) → Nat → α
  | [], a => d a
  | (k, v) :: l, a => if k = a then v else sparseRead d l a

/-- Write `v` at address `a`, keeping the canonical form: an entry equal to what an unlisted address holds is left
out. -/
def sparseWrite {α : Type} [DecidableEq α] (d : Nat → α) (a : Nat) (v : α) : List (Nat × α) → List (Nat × α)
  | [] => if v = d a then [] else [(a, v)]
  | (k, u) :: l =>
    if a < k then (if v = d a then (k, u) :: l else (a, v) :: (k, u) :: l)
    else if a = k then (if v = d a then l else (a, v) :: l)
    else (k, u) :: sparseWrite d a v l

/-- Is every address of the list above `lo`, and are they strictly rising below `bound`, with no entry equal to what
an unlisted address holds? -/
def sparseWfFrom {α : Type} [DecidableEq α] (d : Nat → α) (bound : Nat) : Nat → List (Nat × α) → Bool
  | _, [] => true
  | lo, (k, v) :: l => decide (lo ≤ k) && decide (k < bound) && decide (v ≠ d k) && sparseWfFrom d bound (k + 1) l

/-- The canonical form of the data cells: strictly rising 12-bit addresses, no entry equal to the reset contents. -/
def Memory.wf (m : List (Nat × Nibble)) : Bool :=
  sparseWfFrom resetCell 4096 0 m

/-- The canonical form of the ROM: strictly rising 13-bit addresses, no entry equal to the blank word. -/
def Rom.wf (m : List (Nat × InstrWord)) : Bool :=
  sparseWfFrom blankRomWord 8192 0 m

/-! ### Data cells -/

/-- The stored nibble of the cell at `a`, with no side effect (R17, R28). -/
def State.cell (s : State) (a : DataAddr) : Nibble :=
  sparseRead resetCell s.mem a.toNat

/-- Store a nibble into the cell at `a` (R44: `cell[addr] <- n`). -/
def State.setCell (s : State) (a : DataAddr) (v : Nibble) : State :=
  s.setMem (sparseWrite resetCell a.toNat v s.mem)

/-! ### The ROM -/

/-- `ROM[a]` (R41). -/
def State.romWord (s : State) (a : CodeAddr) : InstrWord :=
  sparseRead blankRomWord s.rom a.toNat

/-- Put a word into the ROM list. Only the host loads the ROM (R4, R351): no step calls this. -/
def State.setRomWord (s : State) (a : CodeAddr) (w : InstrWord) : State :=
  s.setRom (sparseWrite blankRomWord a.toNat w s.rom)

/-! ### Ranges (R40) -/

/-- Is an address in a range? -/
def Range.holds (r : Range) (a : DataAddr) : Bool :=
  decide (r.lo ≤ a.toNat) && decide (a.toNat ≤ r.hi)

/-- RAM (R40). -/
def State.inRam (s : State) (a : DataAddr) : Bool :=
  Range.holds s.params.map.ram a

/-- Either display bank (R40). -/
def State.inDisplay (s : State) (a : DataAddr) : Bool :=
  Range.holds s.params.map.disp1 a || Range.holds s.params.map.disp2 a

/-- The I/O range (R40). -/
def State.inIo (s : State) (a : DataAddr) : Bool :=
  Range.holds s.params.map.io a

/-- Is there a cell at an address? "no cell existing outside these ranges" (R17). -/
def State.backed (s : State) (a : DataAddr) : Bool :=
  s.inRam a || s.inDisplay a || s.inIo a

/-- Is an access to an address an I/O access? The ranges are tried in the order of R43 and R44. -/
def State.ioAccess (s : State) (a : DataAddr) : Bool :=
  !s.inRam a && !s.inDisplay a && s.inIo a

/-- Is a write to an address a display write, one that R47 projects onto the LCD? -/
def State.displayAccess (s : State) (a : DataAddr) : Bool :=
  !s.inRam a && s.inDisplay a

end Sys2Proof.Machine
end

