-- ==== Sys2Proof/Machine/Io.lean ====
section
/-! DEFINITION. The I/O register block: the map of spec/10_state.md R25 and the behaviour of
spec/60_exceptions.md R310 to R320. -/

namespace Sys2Proof.Machine

/-- The registers of the I/O range (R25). A factor or mask register is named by the slot whose nibble it READS. -/
inductive IoReg where
  /-- 0xF00..0xF05: interrupt factor flags (R310) -/
  | factorFlags (slot : SlotId)
  /-- 0xF10..0xF15: interrupt masks (R311, R312) -/
  | intMask (slot : SlotId)
  /-- 0xF24 (R313) -/
  | ptDataLow
  /-- 0xF25 (R313) -/
  | ptDataHigh
  /-- 0xF26 (R313) -/
  | ptReloadLow
  /-- 0xF27 (R313) -/
  | ptReloadHigh
  /-- 0xF40 (R314) -/
  | k0Port
  /-- 0xF42 (R314) -/
  | k1Port
  /-- 0xF54: output port R40-R43, buzzer (R315) -/
  | outputPort
  /-- 0xF70: CPU/OSC3 clock and voltage switch (R316) -/
  | clockSwitch
  /-- 0xF71: LCD control (R316) -/
  | lcdControl
  /-- 0xF72: LCD contrast (R316) -/
  | lcdContrast
  /-- 0xF73: supply-voltage detection (R316) -/
  | svd
  /-- 0xF74: buzzer control 1 (R317) -/
  | buzzerControl1
  /-- 0xF75: buzzer control 2 (R316) -/
  | buzzerControl2
  /-- 0xF76: clock-timer and watchdog reset (R316) -/
  | clockReset
  /-- 0xF77: stopwatch control (R316) -/
  | stopwatchControl
  /-- 0xF78: programmable-timer control (R313) -/
  | ptControl
  /-- 0xF79: programmable-timer clock select (R316) -/
  | ptClockSelect
  /-- every other address of the range (R318) -/
  | unimplemented
deriving DecidableEq, Repr

/-- The register at an I/O address (R25). -/
def ioReg (a : DataAddr) : IoReg :=
  match a.toNat with
  | 0xF00 => .factorFlags .clockTimer
  | 0xF01 => .factorFlags .stopwatch
  | 0xF02 => .factorFlags .progTimer
  | 0xF03 => .factorFlags .serial
  | 0xF04 => .factorFlags .k0Pins
  | 0xF05 => .factorFlags .k1Pins
  | 0xF10 => .intMask .clockTimer
  | 0xF11 => .intMask .stopwatch
  | 0xF12 => .intMask .progTimer
  | 0xF13 => .intMask .serial
  | 0xF14 => .intMask .k0Pins
  | 0xF15 => .intMask .k1Pins
  | 0xF24 => .ptDataLow
  | 0xF25 => .ptDataHigh
  | 0xF26 => .ptReloadLow
  | 0xF27 => .ptReloadHigh
  | 0xF40 => .k0Port
  | 0xF42 => .k1Port
  | 0xF54 => .outputPort
  | 0xF70 => .clockSwitch
  | 0xF71 => .lcdControl
  | 0xF72 => .lcdContrast
  | 0xF73 => .svd
  | 0xF74 => .buzzerControl1
  | 0xF75 => .buzzerControl2
  | 0xF76 => .clockReset
  | 0xF77 => .stopwatchControl
  | 0xF78 => .ptControl
  | 0xF79 => .ptClockSelect
  | _ => .unimplemented

/-! ### Slots -/

/-- Replace a slot's factor nibble. -/
def State.setFactor (s : State) (i : SlotId) (v : Nibble) : State :=
  s.setSlots (s.slots.set i { s.slots.get i with factor := v })

/-- Replace a slot's mask nibble. -/
def State.setMask (s : State) (i : SlotId) (v : Nibble) : State :=
  s.setSlots (s.slots.set i { s.slots.get i with mask := v })

/-- Replace a slot's triggered latch. -/
def State.setTriggered (s : State) (i : SlotId) (v : Bool) : State :=
  s.setSlots (s.slots.set i { s.slots.get i with triggered := v })

/-- The bits of a mask register that read back (R311): two for the stopwatch, one for the programmable timer and the
serial interface, four for the others. -/
def maskReadBits : SlotId → Nibble
  | .progTimer => 0x1
  | .serial => 0x1
  | .k1Pins => 0xF
  | .k0Pins => 0xF
  | .stopwatch => 0x3
  | .clockTimer => 0xF

/-- The slot whose mask a write to a mask register changes (R312): the serial register 0xF13 writes the K10-K13 slot and
the K00-K03 register 0xF14 writes the serial slot, "exactly as observed"; nothing writes the K00-K03 slot (U14). -/
def maskWriteSlot : SlotId → SlotId
  | .progTimer => .progTimer
  | .serial => .k1Pins
  | .k1Pins => .k1Pins
  | .k0Pins => .serial
  | .stopwatch => .stopwatch
  | .clockTimer => .clockTimer

/-! ### Output events (R5) -/

/-- Emit output events, in order. -/
def State.emit (s : State) (es : List Event) : State :=
  s.setOutputs (s.outputs ++ es)

/-! ### Reads -/

/-- The value a read of an I/O register returns (R319 and the rules it names). -/
def ioValue (a : DataAddr) (s : State) : Nibble :=
  match ioReg a with
  | .factorFlags i => (s.slots.get i).factor
  | .intMask i => (s.slots.get i).mask &&& maskReadBits i
  | .ptDataLow => s.ptData.extractLsb' 0 4
  | .ptDataHigh => s.ptData.extractLsb' 4 4
  | .ptReloadLow => s.ptReload.extractLsb' 0 4
  | .ptReloadHigh => s.ptReload.extractLsb' 4 4
  | .k0Port => s.k0
  | .k1Port => s.k1
  | .outputPort => s.cell a
  | .clockSwitch => s.cell a
  | .lcdControl => s.cell a
  | .lcdContrast => 0
  | .svd => s.cell a &&& 0x7
  | .buzzerControl1 => s.cell a
  | .buzzerControl2 => s.cell a &&& 0x3
  | .clockReset => 0
  | .stopwatchControl => 0
  | .ptControl => if s.ptEnabled then 1 else 0
  | .ptClockSelect => 0
  | .unimplemented => 0

/-- What a read of an I/O register does to the state: a factor-flag register is cleared (R310); no other read has an
effect (R48). The triggered latch stays (C5). -/
def ioReadEffect (a : DataAddr) (s : State) : State :=
  match ioReg a with
  | .factorFlags i => s.setFactor i 0
  | _ => s

/-- `IoRead(a)` (R319). -/
def ioRead (a : DataAddr) (s : State) : Nibble × State :=
  (ioValue a s, ioReadEffect a s)

/-! ### Writes -/

/-- A write of the programmable-timer control register (R313), in the order of the rule: reload when bit 1 is set; arm the
time stamp when bit 0 goes from 0 to 1; then store bit 0. -/
def writePtControl (n : Nibble) (s : State) : State :=
  let s1 := if n.getLsbD 1 then s.setPtData s.ptReload else s
  let s2 := if n.getLsbD 0 && !s1.ptEnabled then s1.setPtStamp s1.ticks else s1
  s2.setPtEnabled (n.getLsbD 0)

/-- `IoWrite(a, n)` (R320), called after the generic cell has been stored. -/
def ioWrite (a : DataAddr) (n : Nibble) (s : State) : State :=
  match ioReg a with
  | .intMask i => s.setMask (maskWriteSlot i) n
  | .ptReloadLow => s.setPtReload (s.ptReload.extractLsb' 4 4 ++ n)
  | .ptReloadHigh => s.setPtReload (n ++ s.ptReload.extractLsb' 0 4)
  | .ptControl => writePtControl n s
  | .outputPort => s.emit [.buzzerEnable (!n.getLsbD 3)]
  | .buzzerControl1 => s.emit [.buzzerFreq (n.extractLsb' 0 3)]
  | _ => s

end Sys2Proof.Machine
end

