-- ==== Sys2Proof/Machine/Ops.lean ====
section
/-! DEFINITION. The named operations over memory and registers: data accesses (spec/20_memory.md R43, R44, R47), the
stack (spec/46_stack.md, spec/41_branch.md R112), raising, servicing and entering an interrupt
(spec/60_exceptions.md R304 to R306), and the return from one (R307: the machine's ordinary return, R109). -/

namespace Sys2Proof.Machine

/-! ### Data accesses -/

/-- The events of `LcdProject(addr, n)` (R47): segment `addr[6:1]`, common lines from `8 * addr[7] + 4 * addr[0]`, one
event for each bit of the nibble, bit 0 first. -/
def lcdEvents (a : DataAddr) (n : Nibble) : List Event :=
  let seg := (a.extractLsb' 1 6).toNat
  let com0 := 8 * (a.extractLsb' 7 1).toNat + 4 * (a.extractLsb' 0 1).toNat
  [.lcdPin seg com0 (n.getLsbD 0), .lcdPin seg (com0 + 1) (n.getLsbD 1),
   .lcdPin seg (com0 + 2) (n.getLsbD 2), .lcdPin seg (com0 + 3) (n.getLsbD 3)]

/-- `MemRead(addr, 1)` (R43): the nibble, and the state after the read's side effect. -/
def memRead (a : DataAddr) (s : State) : Nibble × State :=
  if s.inRam a then (s.cell a, s)
  else if s.inDisplay a then (s.cell a, s)
  else if s.inIo a then ioRead a s
  else (0, s)

/-- `MemWrite(addr, 1, v)` (R44). -/
def memWrite (a : DataAddr) (n : Nibble) (s : State) : State :=
  if s.inRam a then s.setCell a n
  else if s.inDisplay a then (s.setCell a n).emit (lcdEvents a n)
  else if s.inIo a then ioWrite a n (s.setCell a n)
  else s

/-! ### The stack -/

/-- The data address of stack-pointer value `v` (R12). -/
def stackAddr (v : Octet) : DataAddr := v.setWidth 12

/-- Decrement `SP`, then write the cell it addresses (R202). -/
def pushNibble (n : Nibble) (s : State) : State :=
  let s1 := s.setSp (s.sp - 1)
  memWrite (stackAddr s1.sp) n s1

/-- Read the cell `SP` addresses (R210). The increment follows the use of the value: see `dropNibble`. -/
def readTop (s : State) : Nibble × State :=
  memRead (stackAddr s.sp) s

/-- Increment `SP` after a pop (R210). -/
def dropNibble (s : State) : State :=
  s.setSp (s.sp + 1)

/-- The address of frame cell `SP + k` under `STACK_WRAP` (R12, R112, spec/46_stack.md): reduced modulo 256 when the
stack wraps; when it does not, the sum itself, and none where that is negative (no cell is there, U3; log
entry 9). -/
def frameAddr (wrap : Bool) (sp : Octet) (k : Int) : Option DataAddr :=
  if wrap then some (stackAddr (sp + BitVec.ofInt 8 k))
  else if (sp.toNat : Int) + k < 0 then none
  else some (BitVec.ofInt 12 ((sp.toNat : Int) + k))

/-- Read a frame cell; an address that does not exist reads 0 (R42). -/
def frameRead (a : Option DataAddr) (s : State) : Nibble × State :=
  match a with
  | some a => memRead a s
  | none => (0, s)

/-- Write a frame cell; a write to an address that does not exist is dropped (R42). -/
def frameWrite (a : Option DataAddr) (n : Nibble) (s : State) : State :=
  match a with
  | some a => memWrite a n s
  | none => s

/-- `PushPC(ra)` (R112): the page nibble, the high and the low step nibble go to the cells `SP-1`, `SP-2`, `SP-3`, in
that order; the bank bit is not saved; `SP` goes down by 3 modulo 256. -/
def pushPC (ra : CodeAddr) (s : State) : State :=
  let w := s.params.stackWrap
  let s1 := frameWrite (frameAddr w s.sp (-1)) (ra.extractLsb' 8 4) s
  let s2 := frameWrite (frameAddr w s.sp (-2)) (ra.extractLsb' 4 4) s1
  let s3 := frameWrite (frameAddr w s.sp (-3)) (ra.extractLsb' 0 4) s2
  s3.setSp (s.sp - 3)

/-- `PopPC()` (R112): low step nibble, high step nibble, page nibble from the cells `SP`, `SP+1`, `SP+2`; the bank bit is
that of the `PC` of the returning instruction; `SP` goes up by 3 modulo 256. -/
def popPC (s : State) : CodeAddr × State :=
  let w := s.params.stackWrap
  let lo := frameRead (frameAddr w s.sp 0) s
  let hi := frameRead (frameAddr w s.sp 1) lo.2
  let pg := frameRead (frameAddr w s.sp 2) hi.2
  (codeAddrOf (pcBank s.pc) pg.1 (hi.1 ++ lo.1), pg.2.setSp (s.sp + 3))

/-! ### Calls and returns (R113) -/

/-- Call-class bookkeeping of `call_depth`. -/
def State.deeper (s : State) : State := s.setCallDepth (s.callDepth + 1)

/-- Return-class bookkeeping of `call_depth`. -/
def State.shallower (s : State) : State := s.setCallDepth (s.callDepth - 1)

/-- The return shared by `RET`, `RETS` and `RETD`, and so by every interrupt handler (R109, R307): pop the return address,
step over `skip` further words, and count the return. -/
def returnFromCall (skip : CodeAddr) (s : State) : State :=
  let p := popPC s
  (p.2.setNextPc (p.1 + skip)).shallower

/-- The call shared by `CALL` and `CALZ` (R107, R108): push `PC + 1`, go to the target, count the call. -/
def callTo (target : CodeAddr) (s : State) : State :=
  ((pushPC (s.pc + 1) s).setNextPc target).deeper

/-! ### Interrupts -/

/-- `GenerateInterrupt(s, b)` (R304): set the factor bit; latch `triggered` if the same mask bit is set. -/
def generateInterrupt (i : SlotId) (b : BitVec 2) (s : State) : State :=
  let s1 := s.setFactor i ((s.slots.get i).factor ||| (1#4 <<< b.toNat))
  if (s.slots.get i).mask.getLsbD b.toNat then s1.setTriggered i true else s1

/-- The step values of the six vectors, all in page 1 (R19). -/
def vectorStep : SlotId → Octet
  | .progTimer => 0x0C
  | .serial => 0x0A
  | .k1Pins => 0x08
  | .k0Pins => 0x06
  | .stopwatch => 0x04
  | .clockTimer => 0x02

/-- The tick cost of an interrupt entry (R306, R360). -/
def entryTicks : Nat := 12

/-- TAKING AN INTERRUPT, `Enter(s)` (R306): push the committed `PC`, clear `I`, set `NP` to page 1 of its own bank, go to
the slot's vector in page 1 of the current bank, count the call, add 12 ticks, clear the latch. `F`, `factor` and
`mask` are not saved and not changed but for `I`. -/
def enterInterrupt (i : SlotId) (s : State) : State :=
  let s1 := (pushPC s.pc s).setI false
  let s2 := s1.setNp (bankPageOf (npBank s1.np) 1)
  let s3 := s2.setPc (codeAddrOf (pcBank s2.pc) 1 (vectorStep i))
  let s4 := s3.deeper
  (s4.setTicks (s4.ticks + entryTicks)).setTriggered i false

/-- Enter a slot if it is triggered (R305). -/
def enterIfTriggered (s : State) (i : SlotId) : State :=
  if (s.slots.get i).triggered then enterInterrupt i s else s

/-- The six slots in the order they are serviced (R19, R305). -/
def slotOrder : List SlotId :=
  [.progTimer, .serial, .k1Pins, .k0Pins, .stopwatch, .clockTimer]

/-- `ProcessInterrupts()` (R305): every triggered slot is entered, in slot order; `I` is not tested again (D33). -/
def processInterrupts (s : State) : State :=
  slotOrder.foldl enterIfTriggered s

end Sys2Proof.Machine
end

