-- ==== Sys2Proof/Machine/Timers.lean ====
section
/-! DEFINITION. Timer servicing (spec/60_exceptions.md R321 to R323). -/

namespace Sys2Proof.Machine

/-- How many whole periods have elapsed since a stamp: how often the servicing loop `while ticks - stamp >= period` runs
its body, which moves the stamp on by one period (R321). A period of 0 has no such loop; it counts none (log
entry 8). -/
def elapsedPeriods (period now stamp : Nat) : Nat :=
  (now - stamp) / period

/-- One pass of the clock timer's loop (R322): advance the stamp, raise bit 3 of slot 5. -/
def clockPeriod (s : State) : State :=
  generateInterrupt .clockTimer 3 (s.setClkStamp (s.clkStamp + s.params.clkPeriod))

/-- The clock timer's loop, run a given number of times. -/
def clockLoop : Nat → State → State
  | 0, s => s
  | n + 1, s => clockLoop n (clockPeriod s)

/-- `ServiceClockTimer()` (R322). -/
def serviceClockTimer (s : State) : State :=
  clockLoop (elapsedPeriods s.params.clkPeriod s.ticks s.clkStamp) s

/-- One pass of the programmable timer's loop (R323): advance the stamp, count down modulo 256; at 0 reload and raise bit
0 of slot 0. -/
def progPeriodPass (s : State) : State :=
  let s1 := s.setPtStamp (s.ptStamp + s.params.progPeriod)
  let s2 := s1.setPtData (s1.ptData - 1)
  if s2.ptData = 0 then generateInterrupt .progTimer 0 (s2.setPtData s2.ptReload) else s2

/-- The programmable timer's loop, run a given number of times. -/
def progLoop : Nat → State → State
  | 0, s => s
  | n + 1, s => progLoop n (progPeriodPass s)

/-- `ServiceProgTimer()` (R323): nothing while the timer is disabled. -/
def serviceProgTimer (s : State) : State :=
  if s.ptEnabled then progLoop (elapsedPeriods s.params.progPeriod s.ticks s.ptStamp) s else s

/-- `ServiceTimers()` (R321): the clock timer first. -/
def serviceTimers (s : State) : State :=
  serviceProgTimer (serviceClockTimer s)

end Sys2Proof.Machine
end

