-- ==== Sys2Proof/Machine/Cycle.lean ====
section
/-! DEFINITION. The phases of a step around the execution of its instruction (spec/40_execution_cycle.md R80 to R90). -/

namespace Sys2Proof.Machine

/-- `Fetch(PC)` (R41, R81): none when `PC >= ROM_WORDS`. -/
def fetch (s : State) : Option InstrWord :=
  if s.pc.toNat < s.params.romWords then some (s.romWord s.pc) else none

/-- Raise a fault (R81, R82): `run <- Fault(r)` and the step returns 1; nothing else changes. -/
def raiseFault (r : Fault) (s : State) : State :=
  (s.setRun (.fault r)).setStop true

/-- A step taken when `run` is not `Ready` (R90): nothing changes and it returns 1. -/
def idleStep (s : State) : State :=
  s.setStop true

/-- Before the handler runs (R83): `next_pc = (PC + 1) mod 8192`. -/
def prepare (s : State) : State :=
  s.setNextPc (s.pc + 1)

/-- Is the instruction `PSET`? The guard of R85 and R88 is by the identity of the instruction. -/
def isPset : Instr → Bool
  | .pset _ => true
  | _ => false

/-- Commit and tick accounting (R84, R86): `PC <- next_pc`, then the cycle cost is added. -/
def commit (i : Instr) (s : State) : State :=
  let s1 := s.setPc s.nextPc
  s1.setTicks (s1.ticks + i.cycles)

/-- The new-page pointer reload (R85): `NP <- PC[12:8]` after any instruction but `PSET`. -/
def reloadNp (i : Instr) (s : State) : State :=
  if isPset i then s else s.setNp (pcBankPage s.pc)

/-- Interrupt servicing (R88): when `I = 1` after the instruction, and the instruction is not `PSET`. -/
def serviceInterrupts (i : Instr) (s : State) : State :=
  if s.flagI && !isPset i then processInterrupts s else s

/-- The end of a step (R89): the temporary `next_pc` is gone (it is kept equal to `PC`, log entry 5), and the step returns
1 exactly when `PC` is a breakpoint. -/
def endStep (s : State) : State :=
  (s.setNextPc s.pc).setStop (s.breakpoints.contains s.pc)

/-- The end of a step that stopped the machine (R80, R122): nothing is committed and it returns 1. -/
def endStopped (s : State) : State :=
  (s.setNextPc s.pc).setStop true

/-- Everything a step does after its instruction has executed (R80): commit, ticks, `NP`, timers, interrupts, breakpoint
scan; nothing of it after `HALT` or `SLP`. -/
def finishStep (i : Instr) (s : State) : State :=
  if s.run = .stopped then endStopped s
  else endStep (serviceInterrupts i (serviceTimers (reloadNp i (commit i s))))

/-- The word of an instruction placed in the ROM where the next step fetches (log entry 23): at `PC`, with `ROM_WORDS`
raised to take in `PC` and the run state `Ready`, which changes nothing where they already hold. -/
def placeFetchWord (w : InstrWord) (s : State) : State :=
  ((s.setRomWord s.pc w).setRun .ready).setParams
    { s.params with romWords := max s.params.romWords (s.pc.toNat + 1) }

end Sys2Proof.Machine
end

