-- ==== Sys2Proof/Machine/Operands.lean ====
section
/-! DEFINITION. Every operand form the instructions use (spec/10_state.md R13, spec/44_transfer.md R171): the `r` and `q`
operands, the short direct operand `Mn`, the post-incremented index operands, and the shared shapes of the
arithmetic and logic instructions over them. Reads come before writes, the destination operand is read first, each
operand once (R92, D36). -/

namespace Sys2Proof.Machine

/-! ### `RQ[i]` (R13) -/

/-- Read `RQ[i]`: the value, and the state after the read's side effect. -/
def readReg : Reg → State → Nibble × State
  | .a, s => (s.a, s)
  | .b, s => (s.b, s)
  | .mx, s => memRead s.x s
  | .my, s => memRead s.y s

/-- `RQ[i] <- v`. -/
def writeReg : Reg → Nibble → State → State
  | .a, v, s => s.setA v
  | .b, v, s => s.setB v
  | .mx, v, s => memWrite s.x v s
  | .my, v, s => memWrite s.y v s

/-! ### `Mn` and the index operands (R171) -/

/-- The address of `Mn`: `zext_12(n)`. -/
def mnAddr (n : Nibble) : DataAddr := n.setWidth 12

/-- Which index register an instruction uses. -/
inductive IndexReg where
  | x
  | y
deriving DecidableEq, Repr

/-- The value of an index register. -/
def State.idx (s : State) : IndexReg → DataAddr
  | .x => s.x
  | .y => s.y

/-- Write an index register. -/
def State.setIdx (s : State) : IndexReg → DataAddr → State
  | .x, v => s.setX v
  | .y, v => s.setY v

/-- Post-increment: add `n` to the low 8 bits, keep the page (R11, D15). -/
def State.bumpIdx (s : State) (k : IndexReg) (n : Octet) : State :=
  s.setIdx k (idxAdd (s.idx k) n)

/-- Store an 8-bit immediate in two cells at `X`, low nibble first, the second cell inside the page of `X`, then add 2 to
`X` (R111, R170). -/
def storePairAtX (l : Octet) (s : State) : State :=
  let s1 := memWrite s.x (l.extractLsb' 0 4) s
  let s2 := memWrite (idxAdd s1.x 1) (l.extractLsb' 4 4) s1
  s2.bumpIdx .x 2

/-! ### Shapes of the arithmetic and logic instructions -/

/-- An adder: `add4` or `sub4`, from two operands, the incoming carry and the decimal flag. -/
abbrev Adder := Nibble → Nibble → Bool → Bool → Nibble × Bool

/-- `op r,i` through the adder, storing the result, `C` and `Z` (R230, R232, R235). `cin` says whether `C` comes in. -/
def arithImm (op : Adder) (cin : Bool) (r : Reg) (i : Nibble) (s : State) : State :=
  let p := readReg r s
  let v := op p.1 i (cin && p.2.flagC) p.2.flagD
  (writeReg r v.1 p.2).setArithFlags v

/-- `op r,q` through the adder (R231, R233, R234, R236). -/
def arithReg (op : Adder) (cin : Bool) (r q : Reg) (s : State) : State :=
  let p := readReg r s
  let o := readReg q p.2
  let v := op p.1 o.1 (cin && o.2.flagC) o.2.flagD
  (writeReg r v.1 o.2).setArithFlags v

/-- `ACPX`, `ACPY`, `SCPX`, `SCPY`: the cell at an index register and an operand through the adder with carry, then the
post-increment (R251 to R254). -/
def arithIndexed (op : Adder) (k : IndexReg) (r : Reg) (s : State) : State :=
  let p := memRead (s.idx k) s
  let o := readReg r p.2
  let v := op p.1 o.1 o.2.flagC o.2.flagD
  ((memWrite (o.2.idx k) v.1 o.2).setArithFlags v).bumpIdx k 1

/-- `op r,i` bitwise, storing the result and `Z` (R237, R239, R241). -/
def logicImm (op : Nibble → Nibble → Nibble) (r : Reg) (i : Nibble) (s : State) : State :=
  let p := readReg r s
  (writeReg r (op p.1 i) p.2).setLogicFlag (op p.1 i)

/-- `op r,q` bitwise (R238, R240, R242). -/
def logicReg (op : Nibble → Nibble → Nibble) (r q : Reg) (s : State) : State :=
  let p := readReg r s
  let o := readReg q p.2
  (writeReg r (op p.1 o.1) o.2).setLogicFlag (op p.1 o.1)

/-- A rotation through carry: store the value, then `C`; `Z` is left alone (R247, R248). -/
def rotateReg (op : Nibble → Bool → Nibble × Bool) (r : Reg) (s : State) : State :=
  let p := readReg r s
  let v := op p.1 p.2.flagC
  (writeReg r v.1 p.2).setC v.2

end Sys2Proof.Machine
end

