-- ==== Sys2Proof/Machine/Arith.lean ====
section
/-! DEFINITION. The arithmetic and logic instructions (spec/47_arith.md). -/

namespace Sys2Proof.Machine

/-- `ADD r,i` (R230). -/
def execAddRI (r : Reg) (imm : Nibble) (s : State) : Result := .next (arithImm add4 false r imm s)

/-- `ADD r,q` (R231). -/
def execAddRQ (r q : Reg) (s : State) : Result := .next (arithReg add4 false r q s)

/-- `ADC r,i` (R232). -/
def execAdcRI (r : Reg) (imm : Nibble) (s : State) : Result := .next (arithImm add4 true r imm s)

/-- `ADC r,q` (R233). -/
def execAdcRQ (r q : Reg) (s : State) : Result := .next (arithReg add4 true r q s)

/-- `SUB r,q` (R234). -/
def execSubRQ (r q : Reg) (s : State) : Result := .next (arithReg sub4 false r q s)

/-- `SBC r,i` (R235). -/
def execSbcRI (r : Reg) (imm : Nibble) (s : State) : Result := .next (arithImm sub4 true r imm s)

/-- `SBC r,q` (R236). -/
def execSbcRQ (r q : Reg) (s : State) : Result := .next (arithReg sub4 true r q s)

/-- `AND r,i` (R237). -/
def execAndRI (r : Reg) (imm : Nibble) (s : State) : Result := .next (logicImm (fun a b => a &&& b) r imm s)

/-- `AND r,q` (R238). -/
def execAndRQ (r q : Reg) (s : State) : Result := .next (logicReg (fun a b => a &&& b) r q s)

/-- `OR r,i` (R239). -/
def execOrRI (r : Reg) (imm : Nibble) (s : State) : Result := .next (logicImm (fun a b => a ||| b) r imm s)

/-- `OR r,q` (R240). -/
def execOrRQ (r q : Reg) (s : State) : Result := .next (logicReg (fun a b => a ||| b) r q s)

/-- `XOR r,i` (R241). -/
def execXorRI (r : Reg) (imm : Nibble) (s : State) : Result := .next (logicImm (fun a b => a ^^^ b) r imm s)

/-- `XOR r,q` (R242). -/
def execXorRQ (r q : Reg) (s : State) : Result := .next (logicReg (fun a b => a ^^^ b) r q s)

/-- `NOT r` (R255): `(~RQ[r]) & 0xF`. -/
def execNotR (r : Reg) (s : State) : Result :=
  .next ((writeReg r (~~~(readReg r s).1) (readReg r s).2).setLogicFlag (~~~(readReg r s).1))

/-- `CP r,i` (R243): flags alone. -/
def execCpRI (r : Reg) (imm : Nibble) (s : State) : Result :=
  .next ((readReg r s).2.setCompareFlags (readReg r s).1 imm)

/-- `CP r,q` (R244): flags alone. -/
def execCpRQ (r q : Reg) (s : State) : Result :=
  let p := readReg r s
  let o := readReg q p.2
  .next (o.2.setCompareFlags p.1 o.1)

/-- `FAN r,i` (R245): `Z` alone; the operand is read, not written. -/
def execFanRI (r : Reg) (imm : Nibble) (s : State) : Result :=
  .next ((readReg r s).2.setLogicFlag ((readReg r s).1 &&& imm))

/-- `FAN r,q` (R246). -/
def execFanRQ (r q : Reg) (s : State) : Result :=
  let p := readReg r s
  let o := readReg q p.2
  .next (o.2.setLogicFlag (p.1 &&& o.1))

/-- `RLC r` (R247): the upper copy `d` of the operand field is ignored (R65, D22). -/
def execRlc (_d : BitVec 2) (r : Reg) (s : State) : Result := .next (rotateReg rotateLeft r s)

/-- `RRC r` (R248). -/
def execRrc (r : Reg) (s : State) : Result := .next (rotateReg rotateRight r s)

/-- `INC Mn` (R249): binary whatever `D` says. -/
def execIncMn (n : Nibble) (s : State) : Result :=
  let p := memRead (mnAddr n) s
  let v := add4 p.1 1 false false
  .next ((memWrite (mnAddr n) v.1 p.2).setArithFlags v)

/-- `DEC Mn` (R250): binary whatever `D` says. -/
def execDecMn (n : Nibble) (s : State) : Result :=
  let p := memRead (mnAddr n) s
  let v := sub4 p.1 1 false false
  .next ((memWrite (mnAddr n) v.1 p.2).setArithFlags v)

/-- `ACPX MX,r` (R251). -/
def execAcpx (r : Reg) (s : State) : Result := .next (arithIndexed add4 .x r s)

/-- `ACPY MY,r` (R252). -/
def execAcpy (r : Reg) (s : State) : Result := .next (arithIndexed add4 .y r s)

/-- `SCPX MX,r` (R253). -/
def execScpx (r : Reg) (s : State) : Result := .next (arithIndexed sub4 .x r s)

/-- `SCPY MY,r` (R254). -/
def execScpy (r : Reg) (s : State) : Result := .next (arithIndexed sub4 .y r s)

end Sys2Proof.Machine
end

