-- ==== Sys2Proof/Machine/Branch.lean ====
section
/-! DEFINITION. The branch instructions (spec/41_branch.md). `pc <- t` of the rules is a write of `nextPc`, which the
step commits (spec/40_execution_cycle.md R83, R84). -/

namespace Sys2Proof.Machine

/-- `pc <- NP ++ s` when the condition holds; otherwise `nextPc` stays `PC + 1` (R101 to R105). -/
def jumpIf (c : Bool) (dest : Octet) (s : State) : State :=
  if c then s.setNextPc (codeAddrOfNp s.np dest) else s

/-- `PSET p` (R100): `NP <- p`. -/
def execPset (p : BankPage) (s : State) : Result := .next (s.setNp p)

/-- `JP s` (R101). -/
def execJp (dest : Octet) (s : State) : Result := .next (jumpIf true dest s)

/-- `JP C,s` (R102). -/
def execJpC (dest : Octet) (s : State) : Result := .next (jumpIf s.flagC dest s)

/-- `JP NC,s` (R103). -/
def execJpNC (dest : Octet) (s : State) : Result := .next (jumpIf (!s.flagC) dest s)

/-- `JP Z,s` (R104). -/
def execJpZ (dest : Octet) (s : State) : Result := .next (jumpIf s.flagZ dest s)

/-- `JP NZ,s` (R105). -/
def execJpNZ (dest : Octet) (s : State) : Result := .next (jumpIf (!s.flagZ) dest s)

/-- `JPBA` (R106): `pc <- NP ++ B ++ A`. -/
def execJpba (s : State) : Result := .next (s.setNextPc (codeAddrOfNp s.np (s.b ++ s.a)))

/-- `CALL s` (R107): to page `NPP` of the current bank; `NBP` is ignored. -/
def execCall (dest : Octet) (s : State) : Result :=
  .next (callTo (codeAddrOf (pcBank s.pc) (npPage s.np) dest) s)

/-- `CALZ s` (R108): to page 0 of the current bank; `NP` is ignored. -/
def execCalz (dest : Octet) (s : State) : Result :=
  .next (callTo (codeAddrOf (pcBank s.pc) 0 dest) s)

/-- `RET` (R109). -/
def execRet (s : State) : Result := .next (returnFromCall 0 s)

/-- `RETS` (R110): return to the popped address plus 1, over all 13 bits. -/
def execRets (s : State) : Result := .next (returnFromCall 1 s)

/-- `RETD l` (R111): return, then store `l` in two cells at `X` and add 2 to `X`. -/
def execRetd (l : Octet) (s : State) : Result := .next (storePairAtX l (returnFromCall 0 s))

end Sys2Proof.Machine
end

