-- ==== Sys2Proof/Machine/FlagInstr.lean ====
section
/-! DEFINITION. The flag instructions (spec/45_flag.md). -/

namespace Sys2Proof.Machine

/-- `SET F,i` (R180): `F <- F | i`. -/
def execSetF (imm : Nibble) (s : State) : Result := .next (s.setF (s.f ||| imm))

/-- `RST F,i` (R181): `F <- F & i`. -/
def execRstF (imm : Nibble) (s : State) : Result := .next (s.setF (s.f &&& imm))

/-- `SCF` (R182). -/
def execScf (s : State) : Result := .next (s.setC true)

/-- `RCF` (R183). -/
def execRcf (s : State) : Result := .next (s.setC false)

/-- `SZF` (R184). -/
def execSzf (s : State) : Result := .next (s.setZ true)

/-- `RZF` (R185). -/
def execRzf (s : State) : Result := .next (s.setZ false)

/-- `SDF` (R186). -/
def execSdf (s : State) : Result := .next (s.setD true)

/-- `RDF` (R187). -/
def execRdf (s : State) : Result := .next (s.setD false)

/-- `EI` (R188). -/
def execEi (s : State) : Result := .next (s.setI true)

/-- `DI` (R189). -/
def execDi (s : State) : Result := .next (s.setI false)

end Sys2Proof.Machine
end

