-- ==== Sys2Proof/Machine/Index.lean ====
section
/-! DEFINITION. The index-register instructions (spec/43_index.md). -/

namespace Sys2Proof.Machine

/-! ### Shared shapes -/

/-- Load an index field from `RQ[r]` (R134 to R139). An `MX` or `MY` operand is read with the old value of the index
register; the field is replaced in the value the register has after the read. -/
def loadIdxField (put : DataAddr → Nibble → DataAddr) (k : IndexReg) (r : Reg) (s : State) : State :=
  let p := readReg r s
  p.2.setIdx k (put (p.2.idx k) p.1)

/-- Store an index field to `RQ[r]` (R140 to R145). -/
def storeIdxField (get : DataAddr → Nibble) (k : IndexReg) (r : Reg) (s : State) : State :=
  writeReg r (get (s.idx k)) s

/-- `ADC` on an index nibble (R146 to R149): binary whatever `D` says; the carry goes to `C` alone. -/
def adcIdxField (get : DataAddr → Nibble) (put : DataAddr → Nibble → DataAddr) (k : IndexReg) (i : Nibble)
    (s : State) : State :=
  let v := add4 (get (s.idx k)) i s.flagC false
  (s.setIdx k (put (s.idx k) v.1)).setArithFlags v

/-- `CP` on an index nibble (R150 to R153): flags alone. -/
def cpIdxField (get : DataAddr → Nibble) (k : IndexReg) (i : Nibble) (s : State) : State :=
  s.setCompareFlags (get (s.idx k)) i

/-! ### The instructions -/

/-- `INC X` (R130). -/
def execIncX (s : State) : Result := .next (s.bumpIdx .x 1)

/-- `INC Y` (R131). -/
def execIncY (s : State) : Result := .next (s.bumpIdx .y 1)

/-- `LD X,x` (R132): the page is unchanged. -/
def execLdXi (v : Octet) (s : State) : Result := .next (s.setX (idxOfPageHL (idxPage s.x) v))

/-- `LD Y,y` (R133): the page is unchanged. -/
def execLdYi (v : Octet) (s : State) : Result := .next (s.setY (idxOfPageHL (idxPage s.y) v))

/-- `LD XP,r` (R134). -/
def execLdXPr (r : Reg) (s : State) : Result := .next (loadIdxField idxSetPage .x r s)

/-- `LD XH,r` (R135). -/
def execLdXHr (r : Reg) (s : State) : Result := .next (loadIdxField idxSetHigh .x r s)

/-- `LD XL,r` (R136). -/
def execLdXLr (r : Reg) (s : State) : Result := .next (loadIdxField idxSetLow .x r s)

/-- `LD YP,r` (R137). -/
def execLdYPr (r : Reg) (s : State) : Result := .next (loadIdxField idxSetPage .y r s)

/-- `LD YH,r` (R138). -/
def execLdYHr (r : Reg) (s : State) : Result := .next (loadIdxField idxSetHigh .y r s)

/-- `LD YL,r` (R139). -/
def execLdYLr (r : Reg) (s : State) : Result := .next (loadIdxField idxSetLow .y r s)

/-- `LD r,XP` (R140). -/
def execLdrXP (r : Reg) (s : State) : Result := .next (storeIdxField idxPage .x r s)

/-- `LD r,XH` (R141). -/
def execLdrXH (r : Reg) (s : State) : Result := .next (storeIdxField idxHigh .x r s)

/-- `LD r,XL` (R142). -/
def execLdrXL (r : Reg) (s : State) : Result := .next (storeIdxField idxLow .x r s)

/-- `LD r,YP` (R143). -/
def execLdrYP (r : Reg) (s : State) : Result := .next (storeIdxField idxPage .y r s)

/-- `LD r,YH` (R144). -/
def execLdrYH (r : Reg) (s : State) : Result := .next (storeIdxField idxHigh .y r s)

/-- `LD r,YL` (R145). -/
def execLdrYL (r : Reg) (s : State) : Result := .next (storeIdxField idxLow .y r s)

/-- `ADC XH,i` (R146). -/
def execAdcXH (imm : Nibble) (s : State) : Result := .next (adcIdxField idxHigh idxSetHigh .x imm s)

/-- `ADC XL,i` (R147). -/
def execAdcXL (imm : Nibble) (s : State) : Result := .next (adcIdxField idxLow idxSetLow .x imm s)

/-- `ADC YH,i` (R148). -/
def execAdcYH (imm : Nibble) (s : State) : Result := .next (adcIdxField idxHigh idxSetHigh .y imm s)

/-- `ADC YL,i` (R149). -/
def execAdcYL (imm : Nibble) (s : State) : Result := .next (adcIdxField idxLow idxSetLow .y imm s)

/-- `CP XH,i` (R150). -/
def execCpXH (imm : Nibble) (s : State) : Result := .next (cpIdxField idxHigh .x imm s)

/-- `CP XL,i` (R151). -/
def execCpXL (imm : Nibble) (s : State) : Result := .next (cpIdxField idxLow .x imm s)

/-- `CP YH,i` (R152). -/
def execCpYH (imm : Nibble) (s : State) : Result := .next (cpIdxField idxHigh .y imm s)

/-- `CP YL,i` (R153). -/
def execCpYL (imm : Nibble) (s : State) : Result := .next (cpIdxField idxLow .y imm s)

end Sys2Proof.Machine
end

