-- ==== Sys2Proof/Machine/Stack.lean ====
section
/-! DEFINITION. The stack instructions (spec/46_stack.md). -/

namespace Sys2Proof.Machine

/-- `INC SP` (R200). -/
def execIncSP (s : State) : Result := .next (s.setSp (s.sp + 1))

/-- `DEC SP` (R201). -/
def execDecSP (s : State) : Result := .next (s.setSp (s.sp - 1))

/-- `PUSH r` (R202): read the operand, decrement `SP`, write. -/
def execPushR (r : Reg) (s : State) : Result :=
  .next (pushNibble (readReg r s).1 (readReg r s).2)

/-- `PUSH XP` (R203). -/
def execPushXP (s : State) : Result := .next (pushNibble (idxPage s.x) s)

/-- `PUSH XH` (R204). -/
def execPushXH (s : State) : Result := .next (pushNibble (idxHigh s.x) s)

/-- `PUSH XL` (R205). -/
def execPushXL (s : State) : Result := .next (pushNibble (idxLow s.x) s)

/-- `PUSH YP` (R206). -/
def execPushYP (s : State) : Result := .next (pushNibble (idxPage s.y) s)

/-- `PUSH YH` (R207). -/
def execPushYH (s : State) : Result := .next (pushNibble (idxHigh s.y) s)

/-- `PUSH YL` (R208). -/
def execPushYL (s : State) : Result := .next (pushNibble (idxLow s.y) s)

/-- `PUSH F` (R209). -/
def execPushF (s : State) : Result := .next (pushNibble s.f s)

/-- `POP r` (R210): read the cell, write the operand, increment `SP`. -/
def execPopR (r : Reg) (s : State) : Result :=
  .next (dropNibble (writeReg r (readTop s).1 (readTop s).2))

/-- Pop into a field of an index register (R211 to R216). -/
def popIdxField (put : DataAddr → Nibble → DataAddr) (k : IndexReg) (s : State) : State :=
  let p := readTop s
  dropNibble (p.2.setIdx k (put (p.2.idx k) p.1))

/-- `POP XP` (R211). -/
def execPopXP (s : State) : Result := .next (popIdxField idxSetPage .x s)

/-- `POP XH` (R212). -/
def execPopXH (s : State) : Result := .next (popIdxField idxSetHigh .x s)

/-- `POP XL` (R213). -/
def execPopXL (s : State) : Result := .next (popIdxField idxSetLow .x s)

/-- `POP YP` (R214). -/
def execPopYP (s : State) : Result := .next (popIdxField idxSetPage .y s)

/-- `POP YH` (R215). -/
def execPopYH (s : State) : Result := .next (popIdxField idxSetHigh .y s)

/-- `POP YL` (R216). -/
def execPopYL (s : State) : Result := .next (popIdxField idxSetLow .y s)

/-- `POP F` (R217): all four flags. -/
def execPopF (s : State) : Result :=
  .next (dropNibble ((readTop s).2.setF (readTop s).1))

/-- `LD SPH,r` (R218). -/
def execLdSPHr (r : Reg) (s : State) : Result :=
  .next ((readReg r s).2.setSp (spSetHigh (readReg r s).2.sp (readReg r s).1))

/-- `LD SPL,r` (R219). -/
def execLdSPLr (r : Reg) (s : State) : Result :=
  .next ((readReg r s).2.setSp (spSetLow (readReg r s).2.sp (readReg r s).1))

/-- `LD r,SPH` (R220). -/
def execLdrSPH (r : Reg) (s : State) : Result := .next (writeReg r (spHigh s.sp) s)

/-- `LD r,SPL` (R221). -/
def execLdrSPL (r : Reg) (s : State) : Result := .next (writeReg r (spLow s.sp) s)

end Sys2Proof.Machine
end

