-- ==== Sys2Proof/Machine/System.lean ====
section
/-! DEFINITION. The system instructions (spec/42_system.md). -/

namespace Sys2Proof.Machine

/-- `enter Stopped` (R122): the run state becomes `Stopped` and the halt indication is emitted. -/
def enterStopped (s : State) : State := (s.setRun .stopped).emit [.halt]

/-- `NOP5` (R120): nothing. -/
def execNop5 (s : State) : Result := .next s

/-- `NOP7` (R121): nothing. -/
def execNop7 (s : State) : Result := .next s

/-- `HALT` (R122). -/
def execHalt (s : State) : Result := .next (enterStopped s)

/-- `SLP` (R123): identical to `HALT` in this machine. -/
def execSlp (s : State) : Result := .next (enterStopped s)

end Sys2Proof.Machine
end

