-- ==== Sys2Proof/Machine/Transfer.lean ====
section
/-! DEFINITION. The data transfer instructions (spec/44_transfer.md). None reads or writes a flag. -/

namespace Sys2Proof.Machine

/-- `v = RQ[q] ; RQ[r] <- v` (R161). -/
def copyReg (r q : Reg) (s : State) : State :=
  let p := readReg q s
  writeReg r p.1 p.2

/-- `LD r,i` (R160): the destination is not read first. -/
def execLdRI (r : Reg) (imm : Nibble) (s : State) : Result := .next (writeReg r imm s)

/-- `LD r,q` (R161). -/
def execLdRQ (r q : Reg) (s : State) : Result := .next (copyReg r q s)

/-- `LD A,Mn` (R162). -/
def execLdAMn (n : Nibble) (s : State) : Result :=
  .next ((memRead (mnAddr n) s).2.setA (memRead (mnAddr n) s).1)

/-- `LD B,Mn` (R163). -/
def execLdBMn (n : Nibble) (s : State) : Result :=
  .next ((memRead (mnAddr n) s).2.setB (memRead (mnAddr n) s).1)

/-- `LD Mn,A` (R164). -/
def execLdMnA (n : Nibble) (s : State) : Result := .next (memWrite (mnAddr n) s.a s)

/-- `LD Mn,B` (R165). -/
def execLdMnB (n : Nibble) (s : State) : Result := .next (memWrite (mnAddr n) s.b s)

/-- `LDPX MX,i` (R166). -/
def execLdpxMX (imm : Nibble) (s : State) : Result := .next ((memWrite s.x imm s).bumpIdx .x 1)

/-- `LDPX r,q` (R167): the operands use the value `X` has before the increment, which happens whatever they are. -/
def execLdpxRQ (r q : Reg) (s : State) : Result := .next ((copyReg r q s).bumpIdx .x 1)

/-- `LDPY MY,i` (R168). -/
def execLdpyMY (imm : Nibble) (s : State) : Result := .next ((memWrite s.y imm s).bumpIdx .y 1)

/-- `LDPY r,q` (R169). -/
def execLdpyRQ (r q : Reg) (s : State) : Result := .next ((copyReg r q s).bumpIdx .y 1)

/-- `LBPX MX,l` (R170). -/
def execLbpx (l : Octet) (s : State) : Result := .next (storePairAtX l s)

end Sys2Proof.Machine
end

