-- ==== Sys2Proof/Machine/Dispatch.lean ====
section
/-! DEFINITION. The dispatch from an instruction to its meaning: the "execute" phase of a step
(spec/40_execution_cycle.md R80), one arm per row of the opcode table, in the table's order. -/

namespace Sys2Proof.Machine

def exec (i : Instr) (s : State) : Host.Outcome State Fault Refusal :=
  match i with
  -- Branch family (spec/41_branch.md)
  | .pset p => Sys2Proof.Machine.execPset p s
  | .jp dest => Sys2Proof.Machine.execJp dest s
  | .jpC dest => Sys2Proof.Machine.execJpC dest s
  | .jpNC dest => Sys2Proof.Machine.execJpNC dest s
  | .jpZ dest => Sys2Proof.Machine.execJpZ dest s
  | .jpNZ dest => Sys2Proof.Machine.execJpNZ dest s
  | .jpba => Sys2Proof.Machine.execJpba s
  | .call dest => Sys2Proof.Machine.execCall dest s
  | .calz dest => Sys2Proof.Machine.execCalz dest s
  | .ret => Sys2Proof.Machine.execRet s
  | .rets => Sys2Proof.Machine.execRets s
  | .retd l => Sys2Proof.Machine.execRetd l s
  -- System family (spec/42_system.md)
  | .nop5 => Sys2Proof.Machine.execNop5 s
  | .nop7 => Sys2Proof.Machine.execNop7 s
  | .halt => Sys2Proof.Machine.execHalt s
  | .slp => Sys2Proof.Machine.execSlp s
  -- Index-register family (spec/43_index.md)
  | .incX => Sys2Proof.Machine.execIncX s
  | .incY => Sys2Proof.Machine.execIncY s
  | .ldXi v => Sys2Proof.Machine.execLdXi v s
  | .ldYi v => Sys2Proof.Machine.execLdYi v s
  | .ldXPr r => Sys2Proof.Machine.execLdXPr r s
  | .ldXHr r => Sys2Proof.Machine.execLdXHr r s
  | .ldXLr r => Sys2Proof.Machine.execLdXLr r s
  | .ldYPr r => Sys2Proof.Machine.execLdYPr r s
  | .ldYHr r => Sys2Proof.Machine.execLdYHr r s
  | .ldYLr r => Sys2Proof.Machine.execLdYLr r s
  | .ldrXP r => Sys2Proof.Machine.execLdrXP r s
  | .ldrXH r => Sys2Proof.Machine.execLdrXH r s
  | .ldrXL r => Sys2Proof.Machine.execLdrXL r s
  | .ldrYP r => Sys2Proof.Machine.execLdrYP r s
  | .ldrYH r => Sys2Proof.Machine.execLdrYH r s
  | .ldrYL r => Sys2Proof.Machine.execLdrYL r s
  | .adcXH imm => Sys2Proof.Machine.execAdcXH imm s
  | .adcXL imm => Sys2Proof.Machine.execAdcXL imm s
  | .adcYH imm => Sys2Proof.Machine.execAdcYH imm s
  | .adcYL imm => Sys2Proof.Machine.execAdcYL imm s
  | .cpXH imm => Sys2Proof.Machine.execCpXH imm s
  | .cpXL imm => Sys2Proof.Machine.execCpXL imm s
  | .cpYH imm => Sys2Proof.Machine.execCpYH imm s
  | .cpYL imm => Sys2Proof.Machine.execCpYL imm s
  -- Transfer family (spec/44_transfer.md)
  | .ldRI r imm => Sys2Proof.Machine.execLdRI r imm s
  | .ldRQ r q => Sys2Proof.Machine.execLdRQ r q s
  | .ldAMn n => Sys2Proof.Machine.execLdAMn n s
  | .ldBMn n => Sys2Proof.Machine.execLdBMn n s
  | .ldMnA n => Sys2Proof.Machine.execLdMnA n s
  | .ldMnB n => Sys2Proof.Machine.execLdMnB n s
  | .ldpxMX imm => Sys2Proof.Machine.execLdpxMX imm s
  | .ldpxRQ r q => Sys2Proof.Machine.execLdpxRQ r q s
  | .ldpyMY imm => Sys2Proof.Machine.execLdpyMY imm s
  | .ldpyRQ r q => Sys2Proof.Machine.execLdpyRQ r q s
  | .lbpx l => Sys2Proof.Machine.execLbpx l s
  -- Flag family (spec/45_flag.md)
  | .scf => Sys2Proof.Machine.execScf s
  | .szf => Sys2Proof.Machine.execSzf s
  | .sdf => Sys2Proof.Machine.execSdf s
  | .ei => Sys2Proof.Machine.execEi s
  | .setF imm => Sys2Proof.Machine.execSetF imm s
  | .rcf => Sys2Proof.Machine.execRcf s
  | .rzf => Sys2Proof.Machine.execRzf s
  | .rdf => Sys2Proof.Machine.execRdf s
  | .di => Sys2Proof.Machine.execDi s
  | .rstF imm => Sys2Proof.Machine.execRstF imm s
  -- Stack family (spec/46_stack.md)
  | .incSP => Sys2Proof.Machine.execIncSP s
  | .decSP => Sys2Proof.Machine.execDecSP s
  | .pushR r => Sys2Proof.Machine.execPushR r s
  | .pushXP => Sys2Proof.Machine.execPushXP s
  | .pushXH => Sys2Proof.Machine.execPushXH s
  | .pushXL => Sys2Proof.Machine.execPushXL s
  | .pushYP => Sys2Proof.Machine.execPushYP s
  | .pushYH => Sys2Proof.Machine.execPushYH s
  | .pushYL => Sys2Proof.Machine.execPushYL s
  | .pushF => Sys2Proof.Machine.execPushF s
  | .popR r => Sys2Proof.Machine.execPopR r s
  | .popXP => Sys2Proof.Machine.execPopXP s
  | .popXH => Sys2Proof.Machine.execPopXH s
  | .popXL => Sys2Proof.Machine.execPopXL s
  | .popYP => Sys2Proof.Machine.execPopYP s
  | .popYH => Sys2Proof.Machine.execPopYH s
  | .popYL => Sys2Proof.Machine.execPopYL s
  | .popF => Sys2Proof.Machine.execPopF s
  | .ldSPHr r => Sys2Proof.Machine.execLdSPHr r s
  | .ldSPLr r => Sys2Proof.Machine.execLdSPLr r s
  | .ldrSPH r => Sys2Proof.Machine.execLdrSPH r s
  | .ldrSPL r => Sys2Proof.Machine.execLdrSPL r s
  -- Arithmetic and logic family (spec/47_arith.md)
  | .addRI r imm => Sys2Proof.Machine.execAddRI r imm s
  | .addRQ r q => Sys2Proof.Machine.execAddRQ r q s
  | .adcRI r imm => Sys2Proof.Machine.execAdcRI r imm s
  | .adcRQ r q => Sys2Proof.Machine.execAdcRQ r q s
  | .subRQ r q => Sys2Proof.Machine.execSubRQ r q s
  | .sbcRI r imm => Sys2Proof.Machine.execSbcRI r imm s
  | .sbcRQ r q => Sys2Proof.Machine.execSbcRQ r q s
  | .andRI r imm => Sys2Proof.Machine.execAndRI r imm s
  | .andRQ r q => Sys2Proof.Machine.execAndRQ r q s
  | .orRI r imm => Sys2Proof.Machine.execOrRI r imm s
  | .orRQ r q => Sys2Proof.Machine.execOrRQ r q s
  | .notR r => Sys2Proof.Machine.execNotR r s
  | .xorRI r imm => Sys2Proof.Machine.execXorRI r imm s
  | .xorRQ r q => Sys2Proof.Machine.execXorRQ r q s
  | .cpRI r imm => Sys2Proof.Machine.execCpRI r imm s
  | .cpRQ r q => Sys2Proof.Machine.execCpRQ r q s
  | .fanRI r imm => Sys2Proof.Machine.execFanRI r imm s
  | .fanRQ r q => Sys2Proof.Machine.execFanRQ r q s
  | .rlc d r => Sys2Proof.Machine.execRlc d r s
  | .rrc r => Sys2Proof.Machine.execRrc r s
  | .incMn n => Sys2Proof.Machine.execIncMn n s
  | .decMn n => Sys2Proof.Machine.execDecMn n s
  | .acpx r => Sys2Proof.Machine.execAcpx r s
  | .acpy r => Sys2Proof.Machine.execAcpy r s
  | .scpx r => Sys2Proof.Machine.execScpx r s
  | .scpy r => Sys2Proof.Machine.execScpy r s

end Sys2Proof.Machine
end

