-- ==== Sys2Proof/Machine/Step.lean ====
section
/-! DEFINITION. The one transition of the machine (spec/40_execution_cycle.md R80). The phases are in Cycle.lean. -/

namespace Sys2Proof.Machine

/-- One step (R80): idle when not `Ready` (R90); otherwise fetch (R81), decode (R82), execute, and the rest of the step. -/
def step (s : State) : Host.Outcome State Fault Refusal :=
  match s.run with
  | .stopped => .next (idleStep s)
  | .fault _ => .next (idleStep s)
  | .ready =>
    match fetch s with
    | none => .next (raiseFault (.fetchOutOfRange s.pc) s)
    | some w =>
      match decode w with
      | .error _ => .next (raiseFault (.decodeFailure w) s)
      | .ok i =>
        match exec i (prepare s) with
        | .next t => .next (finishStep i t)
        | .fault r => .fault r
        | .refused r => .refused r

/-- The state with an instruction's word stored where `step` fetches its next instruction. -/
def State.withFetchWord (s : State) (nbits w : Nat) : State :=
  placeFetchWord (BitVec.ofNat 12 (w % 2 ^ nbits)) s

end Sys2Proof.Machine
end

