-- ==== Sys2Proof/Machine/HostPort.lean ====
section
/-! DEFINITION. What the host can do between steps (spec/00_scope.md R5, spec/20_memory.md R51, D27): change a pin level,
request a reset, change the breakpoints, ask for the outputs again, load a ROM. Each is one transition of its own
(log entry 14). -/

namespace Sys2Proof.Machine

/-- `SetInputPin(port, j, level)` (R309), with `port = pin_id[2]` (0 is K00-K03, 1 is K10-K13) and `j = pin_id[1:0]`: store
the level; a true fall from 1 to 0 raises factor bit `j` of the port's slot. -/
def setInputPin (pin : BitVec 3) (level : Bool) (s : State) : State :=
  let j := pin.extractLsb' 0 2
  let bit : Nibble := 1#4 <<< j.toNat
  if pin.getLsbD 2 then
    let s1 := s.setK1 (putFlag s.k1 bit level)
    if s.k1.getLsbD j.toNat && !level then generateInterrupt .k1Pins j s1 else s1
  else
    let s1 := s.setK0 (putFlag s.k0 bit level)
    if s.k0.getLsbD j.toNat && !level then generateInterrupt .k0Pins j s1 else s1

/-- `Reset()` (R350) as the host requests it, in any run state (R351): ROM, breakpoints and parameters stay, no event is
emitted. -/
def resetRequest (s : State) : State :=
  .afterReset s.rom s.breakpoints s.params s.outputs

/-- The display cells, in ascending address order (R325, D29). -/
def displayAddrs (s : State) : List DataAddr :=
  ((List.range 4096).map (BitVec.ofNat 12)).filter s.inDisplay

/-- The events of `refresh_hardware_outputs()` (R325): every display cell's projection, then the buzzer frequency, then the
buzzer enable. -/
def refreshEvents (s : State) : List Event :=
  (displayAddrs s).flatMap (fun a => lcdEvents a (s.cell a)) ++
    [.buzzerFreq ((s.cell 0xF74).extractLsb' 0 3), .buzzerEnable (!(s.cell 0xF54).getLsbD 3)]

/-- `refresh_hardware_outputs()` (R325): it changes no state of the core. -/
def refreshOutputs (s : State) : State :=
  s.emit (refreshEvents s)

/-- Place the words of a ROM image at addresses `a`, `a + 1`, …, those below 8192 (a 13-bit address reaches no more). -/
def romImage : Nat → List InstrWord → List (Nat × InstrWord)
  | _, [] => []
  | a, w :: ws => if a < 8192 then sparseWrite blankRomWord a w (romImage (a + 1) ws) else []

/-- Load a ROM image from address 0 (R4, R351). Only the host does this; a running program cannot (R54). -/
def loadRom (image : List InstrWord) (s : State) : State :=
  s.setRom (romImage 0 image)

/-- `init(rom_image, breakpoint_list_head, …)` (R351): load the image, take the breakpoints, reset. -/
def init (image : List InstrWord) (breakpoints : List CodeAddr) (params : Params) : State :=
  .afterReset (romImage 0 image) breakpoints params []

/-- What the host can do between two steps. -/
inductive HostEvent where
  /-- R309 -/
  | setInputPin (pin : BitVec 3) (level : Bool)
  /-- R351 -/
  | reset
  /-- R332 -/
  | setBreakpoints (l : List CodeAddr)
  /-- R325 -/
  | refreshOutputs
  /-- R4, R351 -/
  | loadRom (image : List InstrWord)
deriving DecidableEq, Repr

/-- The effect of a host event. -/
def applyHostEvent : HostEvent → State → State
  | .setInputPin pin level, s => Sys2Proof.Machine.setInputPin pin level s
  | .reset, s => resetRequest s
  | .setBreakpoints l, s => s.setBreakpoints l
  | .refreshOutputs, s => Sys2Proof.Machine.refreshOutputs s
  | .loadRom image, s => Sys2Proof.Machine.loadRom image s

end Sys2Proof.Machine
end

