-- ==== Sys2Proof/Safety.lean ====
section
/-! DEFINITION. The terms claims are made in: the invariant of the machine, what an instruction may write according to
its rule in the spec (read from the "Operation" and "Flags" lines, not from the meanings), what operand forms name, and the
arithmetic relations of spec/47_arith.md in plain numbers. In the tables below the last line says "writes nothing
else": an instruction a table forgets is claimed to leave that state alone. -/

namespace Sys2Proof.Machine

/-! ### The invariant -/

/-- What holds between steps: the cells and the ROM are in canonical form and only cells of the four ranges are listed
(R17); `next_pc` is gone (R6); a machine that is not `Ready` has returned 1 (R90); the stamps are in the past (R321); no
write can set the mask of slot 3, so it never latches (R303, U14); nothing raises the serial and stopwatch slots (R303);
the timers raise bit 0 of slot 0 and bit 3 of slot 5 alone (R322, R323). -/
structure State.Inv (s : State) : Prop where
  memWf : Memory.wf s.mem = true
  memBacked : ∀ p ∈ s.mem, s.backed (BitVec.ofNat 12 p.1) = true
  romWf : Rom.wf s.rom = true
  nextPcIsPc : s.nextPc = s.pc
  stoppedSays : s.run ≠ .ready → s.stop = true
  clkStampPast : s.clkStamp ≤ s.ticks
  ptStampPast : s.ptStamp ≤ s.ticks
  k0Silent : (s.slots.get .k0Pins).mask = 0 ∧ (s.slots.get .k0Pins).triggered = false
  serialSilent : (s.slots.get .serial).factor = 0 ∧ (s.slots.get .serial).triggered = false
  stopwatchSilent : (s.slots.get .stopwatch).factor = 0 ∧ (s.slots.get .stopwatch).triggered = false
  progBit0 : (s.slots.get .progTimer).factor &&& 0xE = 0
  clockBit3 : (s.slots.get .clockTimer).factor &&& 0x7 = 0

/-- A machine that has raised no fault (R300, R301). -/
def State.unfaulted (s : State) : Prop := ∀ r, s.run ≠ .fault r

/-! ### Operands -/

/-- The memory address an `r` or `q` operand names (R13); none for a register. -/
def regAddr : Reg → State → List DataAddr
  | .a, _ => []
  | .b, _ => []
  | .mx, s => [s.x]
  | .my, s => [s.y]

/-- The value `RQ[r]` reads as (R13). -/
def regValue (r : Reg) (s : State) : Nibble := (readReg r s).1

/-- The value the second operand reads as, after the first has been read (R92). -/
def secondValue (r q : Reg) (s : State) : Nibble := (readReg q (readReg r s).2).1

/-- The cell at `a` has received `v`, starting from `s`: it holds `v` when there is a cell at `a`, and no cell has changed
when there is none (R42, R44). -/
def cellReceives (a : DataAddr) (v : Nibble) (s t : State) : Prop :=
  if s.backed a then t.cell a = v else t.mem = s.mem

/-- The operand `r` of an instruction started in `s` has received `v` (R13). -/
def regReceives : Reg → Nibble → State → State → Prop
  | .a, v, _, t => t.a = v
  | .b, v, _, t => t.b = v
  | .mx, v, s, t => cellReceives s.x v s t
  | .my, v, s, t => cellReceives s.y v s t

/-- The addresses of the three frame cells below `SP` that hold a return address (R112), those that exist. -/
def pushFrame (s : State) : List DataAddr :=
  [frameAddr s.params.stackWrap s.sp (-1), frameAddr s.params.stackWrap s.sp (-2),
    frameAddr s.params.stackWrap s.sp (-3)].filterMap id

/-- The addresses of the three frame cells from `SP` up (R112), those that exist. -/
def popFrame (s : State) : List DataAddr :=
  [frameAddr s.params.stackWrap s.sp 0, frameAddr s.params.stackWrap s.sp 1,
    frameAddr s.params.stackWrap s.sp 2].filterMap id

/-! ### What an instruction may write, from its rule -/

/-- The `r` operand an instruction writes; `LD A,Mn` and `LD B,Mn` name theirs in the opcode (R160 to R169, R202 to R255). -/
def destOperand : Instr → Option Reg
  | .ldrXP r => some r | .ldrXH r => some r | .ldrXL r => some r
  | .ldrYP r => some r | .ldrYH r => some r | .ldrYL r => some r
  | .ldRI r _ => some r | .ldRQ r _ => some r
  | .ldAMn _ => some .a | .ldBMn _ => some .b
  | .ldpxMX _ => some .mx | .ldpxRQ r _ => some r
  | .ldpyMY _ => some .my | .ldpyRQ r _ => some r
  | .popR r => some r | .ldrSPH r => some r | .ldrSPL r => some r
  | .addRI r _ => some r | .addRQ r _ => some r | .adcRI r _ => some r | .adcRQ r _ => some r
  | .subRQ r _ => some r | .sbcRI r _ => some r | .sbcRQ r _ => some r
  | .andRI r _ => some r | .andRQ r _ => some r | .orRI r _ => some r | .orRQ r _ => some r
  | .notR r => some r | .xorRI r _ => some r | .xorRQ r _ => some r
  | .rlc _ r => some r | .rrc r => some r
  | .acpx _ => some .mx | .acpy _ => some .my | .scpx _ => some .mx | .scpy _ => some .my
  | _ => none

/-- The instructions whose rule writes `X` (R111, R130 to R149, R166, R167, R170, R211 to R213, R251, R253). -/
def writesX : Instr → Bool
  | .retd _ => true
  | .incX => true | .ldXi _ => true
  | .ldXPr _ => true | .ldXHr _ => true | .ldXLr _ => true
  | .adcXH _ => true | .adcXL _ => true
  | .ldpxMX _ => true | .ldpxRQ _ _ => true | .lbpx _ => true
  | .popXP => true | .popXH => true | .popXL => true
  | .acpx _ => true | .scpx _ => true
  | _ => false

/-- The instructions whose rule writes `Y` (R131 to R149, R168, R169, R214 to R216, R252, R254). -/
def writesY : Instr → Bool
  | .incY => true | .ldYi _ => true
  | .ldYPr _ => true | .ldYHr _ => true | .ldYLr _ => true
  | .adcYH _ => true | .adcYL _ => true
  | .ldpyMY _ => true | .ldpyRQ _ _ => true
  | .popYP => true | .popYH => true | .popYL => true
  | .acpy _ => true | .scpy _ => true
  | _ => false

/-- The pushes (R202 to R209). -/
def isPush : Instr → Bool
  | .pushR _ => true | .pushXP => true | .pushXH => true | .pushXL => true
  | .pushYP => true | .pushYH => true | .pushYL => true | .pushF => true
  | _ => false

/-- The pops (R210 to R217). -/
def isPop : Instr → Bool
  | .popR _ => true | .popXP => true | .popXH => true | .popXL => true
  | .popYP => true | .popYH => true | .popYL => true | .popF => true
  | _ => false

/-- The call-class instructions (R113). -/
def isCall : Instr → Bool
  | .call _ => true | .calz _ => true
  | _ => false

/-- The return-class instructions (R113). -/
def isReturn : Instr → Bool
  | .ret => true | .rets => true | .retd _ => true
  | _ => false

/-- The jumps (R101 to R106). -/
def isJump : Instr → Bool
  | .jp _ => true | .jpC _ => true | .jpNC _ => true | .jpZ _ => true | .jpNZ _ => true | .jpba => true
  | _ => false

/-- The instructions whose rule writes `SP` (R112, R200 to R219). -/
def writesSP (i : Instr) : Bool :=
  isPush i || isPop i || isCall i || isReturn i ||
    match i with
    | .incSP => true | .decSP => true | .ldSPHr _ => true | .ldSPLr _ => true
    | _ => false

/-- The bits of `F` an instruction's "Flags" line lets it write (R14, R262): bit 0 `C`, bit 1 `Z`, bit 2 `D`, bit 3 `I`. -/
def flagsWritten : Instr → Nibble
  | .adcXH _ => 0b0011 | .adcXL _ => 0b0011 | .adcYH _ => 0b0011 | .adcYL _ => 0b0011
  | .cpXH _ => 0b0011 | .cpXL _ => 0b0011 | .cpYH _ => 0b0011 | .cpYL _ => 0b0011
  | .scf => 0b0001 | .szf => 0b0010 | .sdf => 0b0100 | .ei => 0b1000
  | .rcf => 0b0001 | .rzf => 0b0010 | .rdf => 0b0100 | .di => 0b1000
  | .setF imm => imm | .rstF imm => ~~~imm
  | .popF => 0b1111
  | .addRI _ _ => 0b0011 | .addRQ _ _ => 0b0011 | .adcRI _ _ => 0b0011 | .adcRQ _ _ => 0b0011
  | .subRQ _ _ => 0b0011 | .sbcRI _ _ => 0b0011 | .sbcRQ _ _ => 0b0011
  | .andRI _ _ => 0b0010 | .andRQ _ _ => 0b0010 | .orRI _ _ => 0b0010 | .orRQ _ _ => 0b0010
  | .notR _ => 0b0010 | .xorRI _ _ => 0b0010 | .xorRQ _ _ => 0b0010
  | .cpRI _ _ => 0b0011 | .cpRQ _ _ => 0b0011
  | .fanRI _ _ => 0b0010 | .fanRQ _ _ => 0b0010
  | .rlc _ _ => 0b0001 | .rrc _ => 0b0001
  | .incMn _ => 0b0011 | .decMn _ => 0b0011
  | .acpx _ => 0b0011 | .acpy _ => 0b0011 | .scpx _ => 0b0011 | .scpy _ => 0b0011
  | _ => 0b0000

/-- The data addresses an instruction started in `s` stores to, computed as its rule says. -/
def storedAddrs (i : Instr) (s : State) : List DataAddr :=
  if isPush i then [stackAddr (s.sp - 1)]
  else if isCall i then pushFrame s
  else match i with
    | .retd _ => [s.x, idxAdd s.x 1]
    | .lbpx _ => [s.x, idxAdd s.x 1]
    | .ldMnA n => [mnAddr n] | .ldMnB n => [mnAddr n]
    | .incMn n => [mnAddr n] | .decMn n => [mnAddr n]
    | j => match destOperand j with
      | some r => regAddr r s
      | none => []

/-- The operands an instruction reads, in order (R92). -/
def sourceOperands : Instr → List Reg
  | .ldXPr r => [r] | .ldXHr r => [r] | .ldXLr r => [r]
  | .ldYPr r => [r] | .ldYHr r => [r] | .ldYLr r => [r]
  | .ldRQ _ q => [q] | .ldpxRQ _ q => [q] | .ldpyRQ _ q => [q]
  | .pushR r => [r] | .ldSPHr r => [r] | .ldSPLr r => [r]
  | .addRI r _ => [r] | .addRQ r q => [r, q] | .adcRI r _ => [r] | .adcRQ r q => [r, q]
  | .subRQ r q => [r, q] | .sbcRI r _ => [r] | .sbcRQ r q => [r, q]
  | .andRI r _ => [r] | .andRQ r q => [r, q] | .orRI r _ => [r] | .orRQ r q => [r, q]
  | .notR r => [r] | .xorRI r _ => [r] | .xorRQ r q => [r, q]
  | .cpRI r _ => [r] | .cpRQ r q => [r, q] | .fanRI r _ => [r] | .fanRQ r q => [r, q]
  | .rlc _ r => [r] | .rrc r => [r]
  | .acpx r => [.mx, r] | .acpy r => [.my, r] | .scpx r => [.mx, r] | .scpy r => [.my, r]
  | _ => []

/-- The data addresses an instruction started in `s` reads, computed as its rule says. -/
def readAddrs (i : Instr) (s : State) : List DataAddr :=
  if isPop i then [stackAddr s.sp]
  else if isReturn i then popFrame s
  else match i with
    | .ldAMn n => [mnAddr n] | .ldBMn n => [mnAddr n]
    | .incMn n => [mnAddr n] | .decMn n => [mnAddr n]
    | j => (sourceOperands j).flatMap (fun r => regAddr r s)

/-- The state that an instruction's data accesses alone leave, each through `MemRead` or `MemWrite` with the effects of its
address (R43, R44): the reads of its rule, then the stores, in the rule's order (R92), a cell stored to receiving the value
it holds in `t`. -/
def accessed (i : Instr) (s t : State) : State :=
  (storedAddrs i s).foldl (fun u k => memWrite k (t.cell k) u) ((readAddrs i s).foldl (fun u k => (memRead k u).2) s)

/-- The cycle cost of an instruction, from the summary of spec/70_reset_and_hazards.md R360. -/
def declaredCost : Instr → Nat
  | .rets => 12 | .retd _ => 12
  | .call _ => 7 | .calz _ => 7 | .ret => 7 | .nop7 => 7
  | .adcXH _ => 7 | .adcXL _ => 7 | .adcYH _ => 7 | .adcYL _ => 7
  | .cpXH _ => 7 | .cpXL _ => 7 | .cpYH _ => 7 | .cpYL _ => 7
  | .setF _ => 7 | .rstF _ => 7 | .scf => 7 | .rcf => 7 | .szf => 7 | .rzf => 7 | .sdf => 7 | .rdf => 7 | .ei => 7 | .di => 7
  | .addRI _ _ => 7 | .addRQ _ _ => 7 | .adcRI _ _ => 7 | .adcRQ _ _ => 7
  | .subRQ _ _ => 7 | .sbcRI _ _ => 7 | .sbcRQ _ _ => 7
  | .andRI _ _ => 7 | .andRQ _ _ => 7 | .orRI _ _ => 7 | .orRQ _ _ => 7
  | .xorRI _ _ => 7 | .xorRQ _ _ => 7 | .notR _ => 7
  | .cpRI _ _ => 7 | .cpRQ _ _ => 7 | .fanRI _ _ => 7 | .fanRQ _ _ => 7
  | .rlc _ _ => 7 | .incMn _ => 7 | .decMn _ => 7
  | .acpx _ => 7 | .acpy _ => 7 | .scpx _ => 7 | .scpy _ => 7
  | _ => 5

/-- The special registers that only an I/O access, a timer or an interrupt entry changes (R91). -/
def SameDevices (s t : State) : Prop :=
  t.slots = s.slots ∧ t.ptReload = s.ptReload ∧ t.ptData = s.ptData ∧ t.ptEnabled = s.ptEnabled ∧
    t.ptStamp = s.ptStamp

/-! ### Arithmetic, in plain numbers -/

/-- `Add4` (R260): the nibble `v` and carry `c` of `a + b + cin`. -/
def SumIs (a b : Nibble) (cin dec : Bool) (v : Nibble) (c : Bool) : Prop :=
  if dec then
    (10 ≤ a.toNat + b.toNat + cin.toNat → v.toNat = (a.toNat + b.toNat + cin.toNat - 10) % 16 ∧ c = true) ∧
    (a.toNat + b.toNat + cin.toNat < 10 → v.toNat = a.toNat + b.toNat + cin.toNat ∧ c = false)
  else v.toNat + 16 * c.toNat = a.toNat + b.toNat + cin.toNat

/-- `Sub4` (R261): the nibble `v` and borrow `c` of `a - b - bin`. -/
def DifferenceIs (a b : Nibble) (bin dec : Bool) (v : Nibble) (c : Bool) : Prop :=
  (c = true ↔ a.toNat < b.toNat + bin.toNat) ∧
    if dec && c then (v.toNat + b.toNat + bin.toNat) % 16 = (a.toNat + 10) % 16
    else v.toNat + b.toNat + bin.toNat = a.toNat + 16 * c.toNat

/-- An index register after `n` has been added to its low 8 bits: the page is kept and the sum wraps at 256 (R11). -/
def IndexAdvanced (old new : DataAddr) (n : Nat) : Prop :=
  new.toNat / 256 = old.toNat / 256 ∧ new.toNat % 256 = (old.toNat % 256 + n) % 256

/-- An index register whose page, high and low nibbles are these (R11). -/
def IndexIs (v : DataAddr) (p h l : Nibble) : Prop :=
  v.toNat = 256 * p.toNat + 16 * h.toNat + l.toNat

/-! ### What an instruction leaves, in the words of its rule -/

/-- `RQ[r] <- v ; C <- c ; Z <- (v = 0)`, with `D` and `I` unchanged (R230 to R236). -/
def StoresWithCZ (r : Reg) (v : Nibble) (c : Bool) (s t : State) : Prop :=
  regReceives r v s t ∧ t.flagC = c ∧ (t.flagZ = true ↔ v = 0) ∧ t.flagD = s.flagD ∧ t.flagI = s.flagI

/-- `RQ[r] <- v ; Z <- (v = 0)`, with `C`, `D` and `I` unchanged (R237 to R242, R255). -/
def StoresWithZ (r : Reg) (v : Nibble) (s t : State) : Prop :=
  regReceives r v s t ∧ (t.flagZ = true ↔ v = 0) ∧ t.flagC = s.flagC ∧ t.flagD = s.flagD ∧ t.flagI = s.flagI

/-- `RQ[r] <- v ; C <- c`, with `Z`, `D` and `I` unchanged (R247, R248). -/
def StoresWithC (r : Reg) (v : Nibble) (c : Bool) (s t : State) : Prop :=
  regReceives r v s t ∧ t.flagC = c ∧ t.flagZ = s.flagZ ∧ t.flagD = s.flagD ∧ t.flagI = s.flagI

/-- `C <- (a < b) ; Z <- (a = b)`, unsigned, with `D` and `I` unchanged (R243, R244). -/
def FlagsCompare (a b : Nibble) (s t : State) : Prop :=
  (t.flagC = true ↔ a.toNat < b.toNat) ∧ (t.flagZ = true ↔ a = b) ∧ t.flagD = s.flagD ∧ t.flagI = s.flagI

/-- `Z <- (v = 0)`, with `C`, `D` and `I` unchanged (R245, R246). -/
def FlagsTest (v : Nibble) (s t : State) : Prop :=
  (t.flagZ = true ↔ v = 0) ∧ t.flagC = s.flagC ∧ t.flagD = s.flagD ∧ t.flagI = s.flagI

/-- The four flags of `F` (R14). -/
def FlagsAre (t : State) (c z d i : Bool) : Prop :=
  t.flagC = c ∧ t.flagZ = z ∧ t.flagD = d ∧ t.flagI = i

/-- An immediate stored in two cells at `X`, low nibble first, the second inside the page of `X`, and `X` advanced by 2
(R111, R170). -/
def PairStored (l : Octet) (s t : State) : Prop :=
  (s.backed s.x = true → t.cell s.x = l.extractLsb' 0 4) ∧
    (s.backed (idxAdd s.x 1) = true → t.cell (idxAdd s.x 1) = l.extractLsb' 4 4) ∧ IndexAdvanced s.x t.x 2

/-- The three frame cells below `SP` hold the low 12 bits of `ra`, least significant nibble lowest, where there are such
cells (R112). -/
def FrameHolds (ra : CodeAddr) (s t : State) : Prop :=
  (∀ k, frameAddr s.params.stackWrap s.sp (-1) = some k → s.backed k = true → t.cell k = ra.extractLsb' 8 4) ∧
  (∀ k, frameAddr s.params.stackWrap s.sp (-2) = some k → s.backed k = true → t.cell k = ra.extractLsb' 4 4) ∧
  (∀ k, frameAddr s.params.stackWrap s.sp (-3) = some k → s.backed k = true → t.cell k = ra.extractLsb' 0 4)

/-- What `PopPC` reads, in order: low step nibble, high step nibble, page nibble (R112). -/
def poppedNibbles (s : State) : Nibble × Nibble × Nibble :=
  let w := s.params.stackWrap
  let lo := frameRead (frameAddr w s.sp 0) s
  let hi := frameRead (frameAddr w s.sp 1) lo.2
  let pg := frameRead (frameAddr w s.sp 2) hi.2
  (lo.1, hi.1, pg.1)

/-- The popped return address as a number: the bank bit of the returning instruction's `PC`, then page, high, low (R112). -/
def poppedNumber (s : State) : Nat :=
  4096 * (s.pc.toNat / 4096) + 256 * (poppedNibbles s).2.2.toNat + 16 * (poppedNibbles s).2.1.toNat +
    (poppedNibbles s).1.toNat

/-- Are the three cells that a call or an interrupt entry pushes to plain cells: existing, backed, and no I/O registers?
With the default parameters they always are (R112). -/
def PlainFrame (s : State) : Prop :=
  s.params.stackWrap = true ∧ ∀ k ∈ pushFrame s, s.backed k = true ∧ s.ioAccess k = false

/-- The value a pop reads (R210). -/
def topValue (s : State) : Nibble := (memRead (stackAddr s.sp) s).1

/-- Run instructions one after another, each through `exec`; none where one does not answer a next state. -/
def execAll : List Instr → State → Option State
  | [], s => some s
  | i :: l, s =>
    match exec i s with
    | .next t => execAll l t
    | _ => none

/-! ### Devices -/

/-- The factor-flag register of a slot (R310). -/
def factorAddr : SlotId → DataAddr
  | .clockTimer => 0xF00
  | .stopwatch => 0xF01
  | .progTimer => 0xF02
  | .serial => 0xF03
  | .k0Pins => 0xF04
  | .k1Pins => 0xF05

/-- The slots whose latch is set, in slot order (R305). -/
def triggeredSlots (s : State) : List SlotId :=
  slotOrder.filter (fun i => (s.slots.get i).triggered)

end Sys2Proof.Machine
end

