-- ==== Sys2Proof/Certificates/Slice0/Obligations.lean ====
section
/-! DEFINITION. The statements for the provers. A statement about an instruction gives the word of its encoding (the pattern of
spec/30_encoding.md R66, laid out field by field), then that `exec` answers a next state, and what that state holds.
The frames are statements of their own, over all instructions. `Memory.wf` is the canonical form of the cells, an
invariant (`Obligations.InvariantKeptByEveryStep`); it is a premise where a written cell is read again. -/

open Sys2Proof Sys2Proof.Machine

/-! ### Arithmetic and logic (spec/47_arith.md) -/

/-- `ADD` and `ADC` (R230 to R233, R260). -/
def Obligations.AdditionsStoreTheSum : Prop :=
  ∀ (r q : Reg) (imm : Nibble) (s : State), Memory.wf s.mem = true →
    decode (0b110000#6 ++ r.code ++ imm) = .ok (.addRI r imm) ∧
    decode (0b10101000#8 ++ r.code ++ q.code) = .ok (.addRQ r q) ∧
    decode (0b110001#6 ++ r.code ++ imm) = .ok (.adcRI r imm) ∧
    decode (0b10101001#8 ++ r.code ++ q.code) = .ok (.adcRQ r q) ∧
    (∃ t v c, exec (.addRI r imm) s = .next t ∧ SumIs (regValue r s) imm false s.flagD v c ∧ StoresWithCZ r v c s t) ∧
    (∃ t v c, exec (.addRQ r q) s = .next t ∧
      SumIs (regValue r s) (secondValue r q s) false s.flagD v c ∧ StoresWithCZ r v c s t) ∧
    (∃ t v c, exec (.adcRI r imm) s = .next t ∧
      SumIs (regValue r s) imm s.flagC s.flagD v c ∧ StoresWithCZ r v c s t) ∧
    (∃ t v c, exec (.adcRQ r q) s = .next t ∧
      SumIs (regValue r s) (secondValue r q s) s.flagC s.flagD v c ∧ StoresWithCZ r v c s t)

/-- `SUB` and `SBC` (R234 to R236, R261). -/
def Obligations.SubtractionsStoreTheDifference : Prop :=
  ∀ (r q : Reg) (imm : Nibble) (s : State), Memory.wf s.mem = true →
    decode (0b10101010#8 ++ r.code ++ q.code) = .ok (.subRQ r q) ∧
    decode (0b110101#6 ++ r.code ++ imm) = .ok (.sbcRI r imm) ∧
    decode (0b10101011#8 ++ r.code ++ q.code) = .ok (.sbcRQ r q) ∧
    (∃ t v c, exec (.subRQ r q) s = .next t ∧
      DifferenceIs (regValue r s) (secondValue r q s) false s.flagD v c ∧ StoresWithCZ r v c s t) ∧
    (∃ t v c, exec (.sbcRI r imm) s = .next t ∧
      DifferenceIs (regValue r s) imm s.flagC s.flagD v c ∧ StoresWithCZ r v c s t) ∧
    (∃ t v c, exec (.sbcRQ r q) s = .next t ∧
      DifferenceIs (regValue r s) (secondValue r q s) s.flagC s.flagD v c ∧ StoresWithCZ r v c s t)

/-- `ACPX`, `ACPY`, `SCPX`, `SCPY` (R251 to R254). -/
def Obligations.DigitStepsUpdateCellAndIndex : Prop :=
  ∀ (r : Reg) (s : State), Memory.wf s.mem = true →
    decode (0b1111001010#10 ++ r.code) = .ok (.acpx r) ∧ decode (0b1111001011#10 ++ r.code) = .ok (.acpy r) ∧
    decode (0b1111001110#10 ++ r.code) = .ok (.scpx r) ∧ decode (0b1111001111#10 ++ r.code) = .ok (.scpy r) ∧
    (∃ t v c, exec (.acpx r) s = .next t ∧ SumIs (regValue .mx s) (secondValue .mx r s) s.flagC s.flagD v c ∧
      StoresWithCZ .mx v c s t ∧ IndexAdvanced s.x t.x 1 ∧ t.y = s.y) ∧
    (∃ t v c, exec (.acpy r) s = .next t ∧ SumIs (regValue .my s) (secondValue .my r s) s.flagC s.flagD v c ∧
      StoresWithCZ .my v c s t ∧ IndexAdvanced s.y t.y 1 ∧ t.x = s.x) ∧
    (∃ t v c, exec (.scpx r) s = .next t ∧ DifferenceIs (regValue .mx s) (secondValue .mx r s) s.flagC s.flagD v c ∧
      StoresWithCZ .mx v c s t ∧ IndexAdvanced s.x t.x 1 ∧ t.y = s.y) ∧
    (∃ t v c, exec (.scpy r) s = .next t ∧ DifferenceIs (regValue .my s) (secondValue .my r s) s.flagC s.flagD v c ∧
      StoresWithCZ .my v c s t ∧ IndexAdvanced s.y t.y 1 ∧ t.x = s.x)

/-- `AND`, `OR`, `XOR`, `NOT` (R237 to R242, R255); the four words of `XOR r,0xF` are `NOT r` (R67). -/
def Obligations.LogicInstructionsStoreBitwiseResults : Prop :=
  ∀ (r q : Reg) (imm : Nibble) (s : State), Memory.wf s.mem = true →
    decode (0b110010#6 ++ r.code ++ imm) = .ok (.andRI r imm) ∧
    decode (0b10101100#8 ++ r.code ++ q.code) = .ok (.andRQ r q) ∧
    decode (0b110011#6 ++ r.code ++ imm) = .ok (.orRI r imm) ∧
    decode (0b10101101#8 ++ r.code ++ q.code) = .ok (.orRQ r q) ∧
    decode (0b110100#6 ++ r.code ++ imm) = .ok (if imm = 0xF then .notR r else .xorRI r imm) ∧
    decode (0b10101110#8 ++ r.code ++ q.code) = .ok (.xorRQ r q) ∧
    (∃ t, exec (.andRI r imm) s = .next t ∧ StoresWithZ r (regValue r s &&& imm) s t) ∧
    (∃ t, exec (.andRQ r q) s = .next t ∧ StoresWithZ r (regValue r s &&& secondValue r q s) s t) ∧
    (∃ t, exec (.orRI r imm) s = .next t ∧ StoresWithZ r (regValue r s ||| imm) s t) ∧
    (∃ t, exec (.orRQ r q) s = .next t ∧ StoresWithZ r (regValue r s ||| secondValue r q s) s t) ∧
    (∃ t, exec (.xorRI r imm) s = .next t ∧ StoresWithZ r (regValue r s ^^^ imm) s t) ∧
    (∃ t, exec (.xorRQ r q) s = .next t ∧ StoresWithZ r (regValue r s ^^^ secondValue r q s) s t) ∧
    (∃ t v, exec (.notR r) s = .next t ∧ v.toNat = 15 - (regValue r s).toNat ∧ StoresWithZ r v s t)

/-- `CP` and `FAN` (R243 to R246): the operands are read, the flags are written, and nothing else is. -/
def Obligations.ComparesAndTestsWriteFlagsAlone : Prop :=
  ∀ (r q : Reg) (imm : Nibble) (s : State),
    decode (0b110111#6 ++ r.code ++ imm) = .ok (.cpRI r imm) ∧
    decode (0b11110000#8 ++ r.code ++ q.code) = .ok (.cpRQ r q) ∧
    decode (0b110110#6 ++ r.code ++ imm) = .ok (.fanRI r imm) ∧
    decode (0b11110001#8 ++ r.code ++ q.code) = .ok (.fanRQ r q) ∧
    (∃ t, exec (.cpRI r imm) s = .next t ∧ FlagsCompare (regValue r s) imm s t ∧ t = { (readReg r s).2 with f := t.f } ∧
      t.mem = s.mem ∧ t.a = s.a ∧ t.b = s.b ∧ t.x = s.x ∧ t.y = s.y ∧ t.sp = s.sp) ∧
    (∃ t, exec (.cpRQ r q) s = .next t ∧ FlagsCompare (regValue r s) (secondValue r q s) s t ∧
      t = { (readReg q (readReg r s).2).2 with f := t.f } ∧
      t.mem = s.mem ∧ t.a = s.a ∧ t.b = s.b ∧ t.x = s.x ∧ t.y = s.y ∧ t.sp = s.sp) ∧
    (∃ t, exec (.fanRI r imm) s = .next t ∧ FlagsTest (regValue r s &&& imm) s t ∧ t = { (readReg r s).2 with f := t.f } ∧
      t.mem = s.mem ∧ t.a = s.a ∧ t.b = s.b ∧ t.x = s.x ∧ t.y = s.y ∧ t.sp = s.sp) ∧
    (∃ t, exec (.fanRQ r q) s = .next t ∧ FlagsTest (regValue r s &&& secondValue r q s) s t ∧
      t = { (readReg q (readReg r s).2).2 with f := t.f } ∧
      t.mem = s.mem ∧ t.a = s.a ∧ t.b = s.b ∧ t.x = s.x ∧ t.y = s.y ∧ t.sp = s.sp)

/-- `RLC` and `RRC` (R247, R248): the operand and `C` together are rotated by one; the upper copy of the operand field of
`RLC` is ignored. -/
def Obligations.RotatesGoThroughCarry : Prop :=
  ∀ (d : BitVec 2) (r : Reg) (s : State), Memory.wf s.mem = true →
    decode (0b10101111#8 ++ d ++ r.code) = .ok (.rlc d r) ∧ decode (0b1110100011#10 ++ r.code) = .ok (.rrc r) ∧
    (∃ t v c, exec (.rlc d r) s = .next t ∧
      v.toNat + 16 * c.toNat = 2 * (regValue r s).toNat + s.flagC.toNat ∧ StoresWithC r v c s t) ∧
    (∃ t v c, exec (.rrc r) s = .next t ∧
      2 * v.toNat + c.toNat = (regValue r s).toNat + 16 * s.flagC.toNat ∧ StoresWithC r v c s t)

/-- `INC Mn` and `DEC Mn` (R249, R250), binary whatever `D` says. -/
def Obligations.ShortCellCountersWrap : Prop :=
  ∀ (n : Nibble) (s : State), Memory.wf s.mem = true →
    decode (0b11110110#8 ++ n) = .ok (.incMn n) ∧ decode (0b11110111#8 ++ n) = .ok (.decMn n) ∧
    (∃ t v, exec (.incMn n) s = .next t ∧ v.toNat = ((memRead (mnAddr n) s).1.toNat + 1) % 16 ∧
      cellReceives (mnAddr n) v s t ∧
      FlagsAre t ((memRead (mnAddr n) s).1 == 15) ((memRead (mnAddr n) s).1 == 15) s.flagD s.flagI) ∧
    (∃ t v, exec (.decMn n) s = .next t ∧ v.toNat = ((memRead (mnAddr n) s).1.toNat + 15) % 16 ∧
      cellReceives (mnAddr n) v s t ∧
      FlagsAre t ((memRead (mnAddr n) s).1 == 0) ((memRead (mnAddr n) s).1 == 1) s.flagD s.flagI)

/-! ### Index registers (spec/43_index.md) -/

/-- `INC X`, `INC Y`, `LD X,x`, `LD Y,y` (R130 to R133): the page never changes. -/
def Obligations.IndexIncrementsAndLoadsKeepThePage : Prop :=
  ∀ (v : Octet) (s : State),
    decode 0b111011100000 = .ok .incX ∧ decode 0b111011110000 = .ok .incY ∧
    decode (0b1011#4 ++ v) = .ok (.ldXi v) ∧ decode (0b1000#4 ++ v) = .ok (.ldYi v) ∧
    (∃ t, exec .incX s = .next t ∧ IndexAdvanced s.x t.x 1 ∧ t.y = s.y ∧ t.f = s.f) ∧
    (∃ t, exec .incY s = .next t ∧ IndexAdvanced s.y t.y 1 ∧ t.x = s.x ∧ t.f = s.f) ∧
    (∃ t, exec (.ldXi v) s = .next t ∧ t.x.toNat = 256 * (s.x.toNat / 256) + v.toNat ∧ t.y = s.y ∧ t.f = s.f) ∧
    (∃ t, exec (.ldYi v) s = .next t ∧ t.y.toNat = 256 * (s.y.toNat / 256) + v.toNat ∧ t.x = s.x ∧ t.f = s.f)

/-- `LD XP,r` to `LD YL,r` (R134 to R139): one nibble of the register is the operand's old value, the others stay. An index
register is its page, high and low nibbles in this order (R11). -/
def Obligations.IndexFieldLoadsReplaceOneNibble : Prop :=
  ∀ (r : Reg) (s : State),
    decode (0b1110100000#10 ++ r.code) = .ok (.ldXPr r) ∧ decode (0b1110100001#10 ++ r.code) = .ok (.ldXHr r) ∧
    decode (0b1110100010#10 ++ r.code) = .ok (.ldXLr r) ∧ decode (0b1110100100#10 ++ r.code) = .ok (.ldYPr r) ∧
    decode (0b1110100101#10 ++ r.code) = .ok (.ldYHr r) ∧ decode (0b1110100110#10 ++ r.code) = .ok (.ldYLr r) ∧
    IndexIs s.x (idxPage s.x) (idxHigh s.x) (idxLow s.x) ∧ IndexIs s.y (idxPage s.y) (idxHigh s.y) (idxLow s.y) ∧
    (∃ t, exec (.ldXPr r) s = .next t ∧ IndexIs t.x (regValue r s) (idxHigh s.x) (idxLow s.x) ∧ t.y = s.y ∧
      t.f = s.f) ∧
    (∃ t, exec (.ldXHr r) s = .next t ∧ IndexIs t.x (idxPage s.x) (regValue r s) (idxLow s.x) ∧ t.y = s.y ∧
      t.f = s.f) ∧
    (∃ t, exec (.ldXLr r) s = .next t ∧ IndexIs t.x (idxPage s.x) (idxHigh s.x) (regValue r s) ∧ t.y = s.y ∧
      t.f = s.f) ∧
    (∃ t, exec (.ldYPr r) s = .next t ∧ IndexIs t.y (regValue r s) (idxHigh s.y) (idxLow s.y) ∧ t.x = s.x ∧
      t.f = s.f) ∧
    (∃ t, exec (.ldYHr r) s = .next t ∧ IndexIs t.y (idxPage s.y) (regValue r s) (idxLow s.y) ∧ t.x = s.x ∧
      t.f = s.f) ∧
    (∃ t, exec (.ldYLr r) s = .next t ∧ IndexIs t.y (idxPage s.y) (idxHigh s.y) (regValue r s) ∧ t.x = s.x ∧
      t.f = s.f)

/-- `LD r,XP` to `LD r,YL` (R140 to R145). -/
def Obligations.IndexFieldStoresCopyOneNibble : Prop :=
  ∀ (r : Reg) (s : State), Memory.wf s.mem = true →
    decode (0b1110101000#10 ++ r.code) = .ok (.ldrXP r) ∧ decode (0b1110101001#10 ++ r.code) = .ok (.ldrXH r) ∧
    decode (0b1110101010#10 ++ r.code) = .ok (.ldrXL r) ∧ decode (0b1110101100#10 ++ r.code) = .ok (.ldrYP r) ∧
    decode (0b1110101101#10 ++ r.code) = .ok (.ldrYH r) ∧ decode (0b1110101110#10 ++ r.code) = .ok (.ldrYL r) ∧
    (∃ t, exec (.ldrXP r) s = .next t ∧ regReceives r (BitVec.ofNat 4 (s.x.toNat / 256)) s t ∧ t.f = s.f) ∧
    (∃ t, exec (.ldrXH r) s = .next t ∧ regReceives r (BitVec.ofNat 4 (s.x.toNat / 16)) s t ∧ t.f = s.f) ∧
    (∃ t, exec (.ldrXL r) s = .next t ∧ regReceives r (BitVec.ofNat 4 s.x.toNat) s t ∧ t.f = s.f) ∧
    (∃ t, exec (.ldrYP r) s = .next t ∧ regReceives r (BitVec.ofNat 4 (s.y.toNat / 256)) s t ∧ t.f = s.f) ∧
    (∃ t, exec (.ldrYH r) s = .next t ∧ regReceives r (BitVec.ofNat 4 (s.y.toNat / 16)) s t ∧ t.f = s.f) ∧
    (∃ t, exec (.ldrYL r) s = .next t ∧ regReceives r (BitVec.ofNat 4 s.y.toNat) s t ∧ t.f = s.f)

/-- `ADC XH,i` to `ADC YL,i` (R146 to R149): binary whatever `D` says, the carry goes to `C` alone. `CP XH,i` to `CP YL,i`
(R150 to R153): no register is written. -/
def Obligations.IndexNibbleAdditionsAndCompares : Prop :=
  ∀ (imm : Nibble) (s : State),
    decode (0b10100000#8 ++ imm) = .ok (.adcXH imm) ∧ decode (0b10100001#8 ++ imm) = .ok (.adcXL imm) ∧
    decode (0b10100010#8 ++ imm) = .ok (.adcYH imm) ∧ decode (0b10100011#8 ++ imm) = .ok (.adcYL imm) ∧
    (∃ t v c, exec (.adcXH imm) s = .next t ∧ SumIs (idxHigh s.x) imm s.flagC false v c ∧
      IndexIs t.x (idxPage s.x) v (idxLow s.x) ∧ t.y = s.y ∧ FlagsAre t c (v == 0) s.flagD s.flagI) ∧
    (∃ t v c, exec (.adcXL imm) s = .next t ∧ SumIs (idxLow s.x) imm s.flagC false v c ∧
      IndexIs t.x (idxPage s.x) (idxHigh s.x) v ∧ t.y = s.y ∧ FlagsAre t c (v == 0) s.flagD s.flagI) ∧
    (∃ t v c, exec (.adcYH imm) s = .next t ∧ SumIs (idxHigh s.y) imm s.flagC false v c ∧
      IndexIs t.y (idxPage s.y) v (idxLow s.y) ∧ t.x = s.x ∧ FlagsAre t c (v == 0) s.flagD s.flagI) ∧
    (∃ t v c, exec (.adcYL imm) s = .next t ∧ SumIs (idxLow s.y) imm s.flagC false v c ∧
      IndexIs t.y (idxPage s.y) (idxHigh s.y) v ∧ t.x = s.x ∧ FlagsAre t c (v == 0) s.flagD s.flagI) ∧
    decode (0b10100100#8 ++ imm) = .ok (.cpXH imm) ∧ decode (0b10100101#8 ++ imm) = .ok (.cpXL imm) ∧
    decode (0b10100110#8 ++ imm) = .ok (.cpYH imm) ∧ decode (0b10100111#8 ++ imm) = .ok (.cpYL imm) ∧
    (∃ t, exec (.cpXH imm) s = .next t ∧ FlagsCompare (idxHigh s.x) imm s t ∧ t.x = s.x ∧ t.y = s.y) ∧
    (∃ t, exec (.cpXL imm) s = .next t ∧ FlagsCompare (idxLow s.x) imm s t ∧ t.x = s.x ∧ t.y = s.y) ∧
    (∃ t, exec (.cpYH imm) s = .next t ∧ FlagsCompare (idxHigh s.y) imm s t ∧ t.x = s.x ∧ t.y = s.y) ∧
    (∃ t, exec (.cpYL imm) s = .next t ∧ FlagsCompare (idxLow s.y) imm s t ∧ t.x = s.x ∧ t.y = s.y)

/-! ### Transfers (spec/44_transfer.md) -/

/-- `LD r,i` and `LD r,q` (R160, R161), and with them both columns of the operand table (R13): what each of the four codes
reads as, what the read does, and what a write to each does. A memory operand is one access at `X` or `Y`, with every
side effect that address has; the destination of a load is not read. -/
def Obligations.LoadsCopyTheirSource : Prop :=
  ∀ (r q : Reg) (imm : Nibble) (s : State), Memory.wf s.mem = true →
    Reg.code .a = 0 ∧ Reg.code .b = 1 ∧ Reg.code .mx = 2 ∧ Reg.code .my = 3 ∧
    regValue .a s = s.a ∧ regValue .b s = s.b ∧ regValue .mx s = (memRead s.x s).1 ∧ regValue .my s = (memRead s.y s).1 ∧
    (readReg .a s).2 = s ∧ (readReg .b s).2 = s ∧ (readReg .mx s).2 = (memRead s.x s).2 ∧
    (readReg .my s).2 = (memRead s.y s).2 ∧
    decode (0b111000#6 ++ r.code ++ imm) = .ok (.ldRI r imm) ∧
    decode (0b11101100#8 ++ r.code ++ q.code) = .ok (.ldRQ r q) ∧
    exec (.ldRI .a imm) s = .next { s with a := imm } ∧ exec (.ldRI .b imm) s = .next { s with b := imm } ∧
    exec (.ldRI .mx imm) s = .next (memWrite s.x imm s) ∧ exec (.ldRI .my imm) s = .next (memWrite s.y imm s) ∧
    exec (.ldRQ r q) s = exec (.ldRI r (regValue q s)) (readReg q s).2 ∧
    (∃ t, exec (.ldRI r imm) s = .next t ∧ regReceives r imm s t ∧ t.f = s.f) ∧
    (∃ t, exec (.ldRQ r q) s = .next t ∧ regReceives r (regValue q s) s t ∧ t.f = s.f)

/-- `LD A,Mn`, `LD B,Mn`, `LD Mn,A`, `LD Mn,B` (R162 to R165); the address of `Mn` is the number `n`, in RAM with the default
ranges. -/
def Obligations.ShortDirectTransfers : Prop :=
  ∀ (n : Nibble) (s : State), Memory.wf s.mem = true →
    (mnAddr n).toNat = n.toNat ∧ (s.params.map = standardMap → s.inRam (mnAddr n) = true) ∧
    decode (0b11111010#8 ++ n) = .ok (.ldAMn n) ∧ decode (0b11111011#8 ++ n) = .ok (.ldBMn n) ∧
    decode (0b11111000#8 ++ n) = .ok (.ldMnA n) ∧ decode (0b11111001#8 ++ n) = .ok (.ldMnB n) ∧
    (∃ t, exec (.ldAMn n) s = .next t ∧ t.a = (memRead (mnAddr n) s).1 ∧ t.b = s.b ∧ t.f = s.f) ∧
    (∃ t, exec (.ldBMn n) s = .next t ∧ t.b = (memRead (mnAddr n) s).1 ∧ t.a = s.a ∧ t.f = s.f) ∧
    (∃ t, exec (.ldMnA n) s = .next t ∧ cellReceives (mnAddr n) s.a s t ∧ t.a = s.a ∧ t.b = s.b ∧ t.f = s.f) ∧
    (∃ t, exec (.ldMnB n) s = .next t ∧ cellReceives (mnAddr n) s.b s t ∧ t.a = s.a ∧ t.b = s.b ∧ t.f = s.f)

/-- `LDPX`, `LDPY` and `LBPX` (R166 to R170): the copy uses the index register's old value; 0xEE0 and 0xEF0 are `INC X` and
`INC Y` (R67). The two writes of `LBPX` are separate accesses in the rule's order, so the events of two display cells come in
that order. -/
def Obligations.PostIncrementTransfers : Prop :=
  ∀ (r q : Reg) (imm : Nibble) (l : Octet) (s : State), Memory.wf s.mem = true →
    decode (0b1001#4 ++ l) = .ok (.lbpx l) ∧
    IndexAdvanced s.x (idxAdd s.x 1) 1 ∧
    (∃ t, exec (.lbpx l) s = .next t ∧ PairStored l s t ∧ t.y = s.y ∧ t.f = s.f ∧
      t = { memWrite (idxAdd s.x 1) (l.extractLsb' 4 4) (memWrite s.x (l.extractLsb' 0 4) s) with x := t.x }) ∧
    decode (0b11100110#8 ++ imm) = .ok (.ldpxMX imm) ∧ decode (0b11100111#8 ++ imm) = .ok (.ldpyMY imm) ∧
    decode (0b11101110#8 ++ r.code ++ q.code) = .ok (if r = .a ∧ q = .a then .incX else .ldpxRQ r q) ∧
    decode (0b11101111#8 ++ r.code ++ q.code) = .ok (if r = .a ∧ q = .a then .incY else .ldpyRQ r q) ∧
    (∃ t, exec (.ldpxMX imm) s = .next t ∧ cellReceives s.x imm s t ∧ IndexAdvanced s.x t.x 1 ∧ t.y = s.y ∧ t.f = s.f) ∧
    (∃ t, exec (.ldpyMY imm) s = .next t ∧ cellReceives s.y imm s t ∧ IndexAdvanced s.y t.y 1 ∧ t.x = s.x ∧ t.f = s.f) ∧
    (∃ t, exec (.ldpxRQ r q) s = .next t ∧ regReceives r (regValue q s) s t ∧ IndexAdvanced s.x t.x 1 ∧ t.y = s.y ∧
      t.f = s.f) ∧
    (∃ t, exec (.ldpyRQ r q) s = .next t ∧ regReceives r (regValue q s) s t ∧ IndexAdvanced s.y t.y 1 ∧ t.x = s.x ∧
      t.f = s.f)

/-! ### Flags (spec/45_flag.md) -/

/-- `SET F,i`, `RST F,i` (R180, R181) and `SCF` to `DI` (R182 to R189), whose words are those of a mask with one selected
flag (R67). -/
def Obligations.FlagInstructionsSetAndReset : Prop :=
  ∀ (imm : Nibble) (s : State),
    decode 0xF41 = .ok .scf ∧ decode 0xF5E = .ok .rcf ∧ decode 0xF42 = .ok .szf ∧ decode 0xF5D = .ok .rzf ∧
    decode 0xF44 = .ok .sdf ∧ decode 0xF5B = .ok .rdf ∧ decode 0xF48 = .ok .ei ∧ decode 0xF57 = .ok .di ∧
    ((Instr.setF imm).wellFormed = true → decode (0b11110100#8 ++ imm) = .ok (.setF imm)) ∧
    ((Instr.rstF imm).wellFormed = true → decode (0b11110101#8 ++ imm) = .ok (.rstF imm)) ∧
    s.flagC = s.f.getLsbD 0 ∧ s.flagZ = s.f.getLsbD 1 ∧ s.flagD = s.f.getLsbD 2 ∧ s.flagI = s.f.getLsbD 3 ∧
    (∃ t, exec (.setF imm) s = .next t ∧ FlagsAre t (s.flagC || imm.getLsbD 0) (s.flagZ || imm.getLsbD 1)
      (s.flagD || imm.getLsbD 2) (s.flagI || imm.getLsbD 3)) ∧
    (∃ t, exec (.rstF imm) s = .next t ∧ FlagsAre t (s.flagC && imm.getLsbD 0) (s.flagZ && imm.getLsbD 1)
      (s.flagD && imm.getLsbD 2) (s.flagI && imm.getLsbD 3)) ∧
    (∃ t, exec .scf s = .next t ∧ FlagsAre t true s.flagZ s.flagD s.flagI) ∧
    (∃ t, exec .rcf s = .next t ∧ FlagsAre t false s.flagZ s.flagD s.flagI) ∧
    (∃ t, exec .szf s = .next t ∧ FlagsAre t s.flagC true s.flagD s.flagI) ∧
    (∃ t, exec .rzf s = .next t ∧ FlagsAre t s.flagC false s.flagD s.flagI) ∧
    (∃ t, exec .sdf s = .next t ∧ FlagsAre t s.flagC s.flagZ true s.flagI) ∧
    (∃ t, exec .rdf s = .next t ∧ FlagsAre t s.flagC s.flagZ false s.flagI) ∧
    (∃ t, exec .ei s = .next t ∧ FlagsAre t s.flagC s.flagZ s.flagD true) ∧
    (∃ t, exec .di s = .next t ∧ FlagsAre t s.flagC s.flagZ s.flagD false)

/-! ### Stack (spec/46_stack.md) -/

/-- `INC SP`, `DEC SP`, `LD SPH,r`, `LD SPL,r`, `LD r,SPH`, `LD r,SPL` (R200, R201, R218 to R221). -/
def Obligations.StackPointerInstructions : Prop :=
  ∀ (r : Reg) (s : State), Memory.wf s.mem = true →
    decode 0xFDB = .ok .incSP ∧ decode 0xFCB = .ok .decSP ∧
    decode (0b1111111000#10 ++ r.code) = .ok (.ldSPHr r) ∧ decode (0b1111111100#10 ++ r.code) = .ok (.ldSPLr r) ∧
    decode (0b1111111001#10 ++ r.code) = .ok (.ldrSPH r) ∧ decode (0b1111111101#10 ++ r.code) = .ok (.ldrSPL r) ∧
    (∃ t, exec .incSP s = .next t ∧ t.sp.toNat = (s.sp.toNat + 1) % 256 ∧ t.mem = s.mem ∧ t.f = s.f) ∧
    (∃ t, exec .decSP s = .next t ∧ t.sp.toNat = (s.sp.toNat + 255) % 256 ∧ t.mem = s.mem ∧ t.f = s.f) ∧
    (∃ t, exec (.ldSPHr r) s = .next t ∧ t.sp.toNat = 16 * (regValue r s).toNat + s.sp.toNat % 16 ∧ t.f = s.f) ∧
    (∃ t, exec (.ldSPLr r) s = .next t ∧ t.sp.toNat = 16 * (s.sp.toNat / 16) + (regValue r s).toNat ∧ t.f = s.f) ∧
    (∃ t, exec (.ldrSPH r) s = .next t ∧ regReceives r (BitVec.ofNat 4 (s.sp.toNat / 16)) s t ∧ t.sp = s.sp ∧
      t.f = s.f) ∧
    (∃ t, exec (.ldrSPL r) s = .next t ∧ regReceives r (BitVec.ofNat 4 s.sp.toNat) s t ∧ t.sp = s.sp ∧ t.f = s.f)

/-- The eight pushes (R202 to R209): `SP` goes down by 1 modulo 256, then the cell it addresses is written. -/
def Obligations.PushesDecrementThenStore : Prop :=
  ∀ (r : Reg) (s : State), Memory.wf s.mem = true →
    decode (0b1111110000#10 ++ r.code) = .ok (.pushR r) ∧ decode 0xFC4 = .ok .pushXP ∧ decode 0xFC5 = .ok .pushXH ∧
    decode 0xFC6 = .ok .pushXL ∧ decode 0xFC7 = .ok .pushYP ∧ decode 0xFC8 = .ok .pushYH ∧
    decode 0xFC9 = .ok .pushYL ∧ decode 0xFCA = .ok .pushF ∧
    ∀ p ∈ [(Instr.pushR r, regValue r s), (.pushXP, idxPage s.x), (.pushXH, idxHigh s.x), (.pushXL, idxLow s.x),
        (.pushYP, idxPage s.y), (.pushYH, idxHigh s.y), (.pushYL, idxLow s.y), (.pushF, s.f)],
      ∃ t, exec p.1 s = .next t ∧ t.sp.toNat = (s.sp.toNat + 255) % 256 ∧
        cellReceives (BitVec.ofNat 12 ((s.sp.toNat + 255) % 256)) p.2 s t ∧ t.x = s.x ∧ t.y = s.y ∧ t.f = s.f

/-- The eight pops (R210 to R217): the cell `SP` addresses is read, its value written, then `SP` goes up by 1 modulo 256. -/
def Obligations.PopsLoadThenIncrement : Prop :=
  ∀ (r : Reg) (s : State), Memory.wf s.mem = true →
    decode (0b1111110100#10 ++ r.code) = .ok (.popR r) ∧ decode 0xFD4 = .ok .popXP ∧ decode 0xFD5 = .ok .popXH ∧
    decode 0xFD6 = .ok .popXL ∧ decode 0xFD7 = .ok .popYP ∧ decode 0xFD8 = .ok .popYH ∧
    decode 0xFD9 = .ok .popYL ∧ decode 0xFDA = .ok .popF ∧
    topValue s = (memRead (BitVec.ofNat 12 s.sp.toNat) s).1 ∧
    (∃ t, exec (.popR r) s = .next t ∧ regReceives r (topValue s) s t ∧ t.sp.toNat = (s.sp.toNat + 1) % 256 ∧
      t.f = s.f) ∧
    (∃ t, exec .popXP s = .next t ∧ IndexIs t.x (topValue s) (idxHigh s.x) (idxLow s.x) ∧ t.y = s.y ∧
      t.sp.toNat = (s.sp.toNat + 1) % 256 ∧ t.f = s.f) ∧
    (∃ t, exec .popXH s = .next t ∧ IndexIs t.x (idxPage s.x) (topValue s) (idxLow s.x) ∧ t.y = s.y ∧
      t.sp.toNat = (s.sp.toNat + 1) % 256 ∧ t.f = s.f) ∧
    (∃ t, exec .popXL s = .next t ∧ IndexIs t.x (idxPage s.x) (idxHigh s.x) (topValue s) ∧ t.y = s.y ∧
      t.sp.toNat = (s.sp.toNat + 1) % 256 ∧ t.f = s.f) ∧
    (∃ t, exec .popYP s = .next t ∧ IndexIs t.y (topValue s) (idxHigh s.y) (idxLow s.y) ∧ t.x = s.x ∧
      t.sp.toNat = (s.sp.toNat + 1) % 256 ∧ t.f = s.f) ∧
    (∃ t, exec .popYH s = .next t ∧ IndexIs t.y (idxPage s.y) (topValue s) (idxLow s.y) ∧ t.x = s.x ∧
      t.sp.toNat = (s.sp.toNat + 1) % 256 ∧ t.f = s.f) ∧
    (∃ t, exec .popYL s = .next t ∧ IndexIs t.y (idxPage s.y) (idxHigh s.y) (topValue s) ∧ t.x = s.x ∧
      t.sp.toNat = (s.sp.toNat + 1) % 256 ∧ t.f = s.f) ∧
    (∃ t, exec .popF s = .next t ∧ FlagsAre t ((topValue s).getLsbD 0) ((topValue s).getLsbD 1)
      ((topValue s).getLsbD 2) ((topValue s).getLsbD 3) ∧ t.sp.toNat = (s.sp.toNat + 1) % 256)

/-! ### Branches (spec/41_branch.md) -/

/-- `PSET p` (R100). -/
def Obligations.PsetWritesTheNewPagePointer : Prop :=
  ∀ (p : BankPage) (s : State),
    decode (0b1110010#7 ++ p) = .ok (.pset p) ∧
    ∃ t, exec (.pset p) s = .next t ∧ t.np = p ∧ (npBank t.np).toNat = p.toNat / 16 ∧ (npPage t.np).toNat = p.toNat % 16 ∧
      t.nextPc = s.nextPc ∧ t.f = s.f

/-- `JP s`, the four conditional jumps and `JPBA` (R101 to R106): the target is `NP` and the step; a jump not taken leaves
the next-PC alone. -/
def Obligations.JumpsGoToTheNewPage : Prop :=
  ∀ (d : Octet) (s : State),
    decode (0b0000#4 ++ d) = .ok (.jp d) ∧ decode (0b0010#4 ++ d) = .ok (.jpC d) ∧
    decode (0b0011#4 ++ d) = .ok (.jpNC d) ∧ decode (0b0110#4 ++ d) = .ok (.jpZ d) ∧
    decode (0b0111#4 ++ d) = .ok (.jpNZ d) ∧ decode 0xFE8 = .ok .jpba ∧
    (∃ t, exec (.jp d) s = .next t ∧ t.nextPc.toNat = 256 * s.np.toNat + d.toNat ∧ t.f = s.f) ∧
    (∃ t, exec (.jpC d) s = .next t ∧ t.f = s.f ∧
      t.nextPc.toNat = if s.flagC = true then 256 * s.np.toNat + d.toNat else s.nextPc.toNat) ∧
    (∃ t, exec (.jpNC d) s = .next t ∧ t.f = s.f ∧
      t.nextPc.toNat = if s.flagC = false then 256 * s.np.toNat + d.toNat else s.nextPc.toNat) ∧
    (∃ t, exec (.jpZ d) s = .next t ∧ t.f = s.f ∧
      t.nextPc.toNat = if s.flagZ = true then 256 * s.np.toNat + d.toNat else s.nextPc.toNat) ∧
    (∃ t, exec (.jpNZ d) s = .next t ∧ t.f = s.f ∧
      t.nextPc.toNat = if s.flagZ = false then 256 * s.np.toNat + d.toNat else s.nextPc.toNat) ∧
    (∃ t, exec .jpba s = .next t ∧ t.nextPc.toNat = 256 * s.np.toNat + 16 * s.b.toNat + s.a.toNat ∧ t.f = s.f)

/-- `CALL s` and `CALZ s` (R107, R108): the frame holds `PC + 1`, the bank of the target is that of the call. -/
def Obligations.CallsPushTheReturnAddress : Prop :=
  ∀ (d : Octet) (s : State), Memory.wf s.mem = true →
    decode (0b0100#4 ++ d) = .ok (.call d) ∧ decode (0b0101#4 ++ d) = .ok (.calz d) ∧
    (∃ t, exec (.call d) s = .next t ∧ FrameHolds (s.pc + 1) s t ∧ t.sp.toNat = (s.sp.toNat + 253) % 256 ∧
      t.callDepth = s.callDepth + 1 ∧ t.f = s.f ∧
      t.nextPc.toNat = 4096 * (s.pc.toNat / 4096) + 256 * (s.np.toNat % 16) + d.toNat) ∧
    (∃ t, exec (.calz d) s = .next t ∧ FrameHolds (s.pc + 1) s t ∧ t.sp.toNat = (s.sp.toNat + 253) % 256 ∧
      t.callDepth = s.callDepth + 1 ∧ t.f = s.f ∧ t.nextPc.toNat = 4096 * (s.pc.toNat / 4096) + d.toNat)

/-- `RET`, `RETS`, `RETD l` (R109 to R111); the stores of `RETD` come after the pops. -/
def Obligations.ReturnsPopTheReturnAddress : Prop :=
  ∀ (l : Octet) (s : State), Memory.wf s.mem = true →
    decode 0xFDF = .ok .ret ∧ decode 0xFDE = .ok .rets ∧ decode (0b0001#4 ++ l) = .ok (.retd l) ∧
    (∃ t, exec .ret s = .next t ∧ t.nextPc.toNat = poppedNumber s ∧ t.sp.toNat = (s.sp.toNat + 3) % 256 ∧
      t.callDepth = s.callDepth - 1 ∧ t.f = s.f) ∧
    (∃ t, exec .rets s = .next t ∧ t.nextPc.toNat = (poppedNumber s + 1) % 8192 ∧
      t.sp.toNat = (s.sp.toNat + 3) % 256 ∧ t.callDepth = s.callDepth - 1 ∧ t.f = s.f) ∧
    (∃ t, exec (.retd l) s = .next t ∧ t.nextPc.toNat = poppedNumber s ∧ t.sp.toNat = (s.sp.toNat + 3) % 256 ∧
      t.callDepth = s.callDepth - 1 ∧ t.f = s.f ∧ PairStored l s t)

/-- Where the frame cells are (R12, R112): modulo 256 when the stack wraps; the plain sum when it does not, and no cell
where that is negative (log entry 9). A frame cell is read as any cell; where there is none it reads 0. -/
def Obligations.FrameCellsAreAtTheStackAddresses : Prop :=
  ∀ (sp : Octet) (k : Int), -3 ≤ k → k ≤ 2 →
    (∃ a, frameAddr true sp k = some a ∧ (a.toNat : Int) = (sp.toNat + k) % 256) ∧
    (0 ≤ sp.toNat + k → ∃ a, frameAddr false sp k = some a ∧ (a.toNat : Int) = sp.toNat + k) ∧
    (sp.toNat + k < 0 → frameAddr false sp k = none) ∧
    (∀ (s : State) (a : DataAddr), frameRead (some a) s = memRead a s ∧ frameRead none s = (0, s))

/-- A call followed by a return from the same bank comes back to the word after the call, with `SP` and `call_depth` as they
were (R112, R113); `pc` is wherever the return stands. -/
def Obligations.ReturnUndoesCall : Prop :=
  ∀ (d : Octet) (s : State) (pc : CodeAddr), Memory.wf s.mem = true → PlainFrame s →
    pcBank pc = pcBank (s.pc + 1) →
    ∀ i ∈ [Instr.call d, .calz d], ∃ t u, exec i s = .next t ∧ exec .ret (t.setPc pc) = .next u ∧
      u.nextPc = s.pc + 1 ∧ u.sp = s.sp ∧ u.callDepth = s.callDepth

/-- "a sequence of N call-class instructions followed by N return-class instructions" (R113). -/
def Obligations.BalancedCallsRestoreDepthAndStackPointer : Prop :=
  ∀ (calls returns : List Instr) (s : State), (∀ i ∈ calls, isCall i = true) → (∀ i ∈ returns, isReturn i = true) →
    calls.length = returns.length →
    ∃ t, execAll (calls ++ returns) s = some t ∧ t.callDepth = s.callDepth ∧ t.sp = s.sp

/-! ### System instructions and the step (spec/42_system.md, spec/40_execution_cycle.md) -/

/-- `NOP5`, `NOP7` do nothing; `HALT`, `SLP` stop the machine and emit the halt indication (R120 to R123). The event of `SLP`
is the model's reading of "identical to HALT" (log entry 6). -/
def Obligations.NopsDoNothingHaltsStop : Prop :=
  (decode 0xFFB = .ok .nop5 ∧ decode 0xFFF = .ok .nop7 ∧ decode 0xFF8 = .ok .halt ∧ decode 0xFF9 = .ok .slp) ∧
  ∀ s : State, exec .nop5 s = .next s ∧ exec .nop7 s = .next s ∧
    ∀ i ∈ [Instr.halt, .slp],
      exec i s = .next { s with run := .stopped, outputs := s.outputs ++ [.halt] }

/-- No instruction raises a synchronous exception of its own (R93): every one completes, in every state. -/
def Obligations.EveryInstructionCompletes : Prop :=
  ∀ (i : Instr) (s : State), ∃ t, exec i s = .next t ∧ (s.unfaulted → t.unfaulted)

/-- A step at a word that decodes to `i` runs `i` with `next_pc = PC + 1`, then everything `finishStep` does (R80, R83); the word
at an address is that of the loaded image (R18, R41). -/
def Obligations.StepRunsTheDecodedInstruction : Prop :=
  (∀ (s : State) (i : Instr), s.run = .ready → s.pc.toNat < s.params.romWords → decode (s.romWord s.pc) = .ok i →
    ∃ t, exec i { s with nextPc := s.pc + 1 } = .next t ∧ step s = .next (finishStep i t)) ∧
  ∀ (s : State) (image : List InstrWord) (a : CodeAddr) (w : InstrWord), image[a.toNat]? = some w →
    (loadRom image s).romWord a = w

/-- What a step does after its instruction when no interrupt is serviced, be it because `I = 0` or after `PSET` (R84 to R89):
commit, ticks with the cost of R360, `NP`, the clock timer and then the programmable timer (R87, R321), breakpoints; the
registers and cells are as the instruction left them. -/
def Obligations.StepCommitsCountsAndReloads : Prop :=
  ∀ (s t : State) (i : Instr), s.run = .ready → s.pc.toNat < s.params.romWords → decode (s.romWord s.pc) = .ok i →
    exec i { s with nextPc := s.pc + 1 } = .next t → t.run = .ready → (t.flagI = false ∨ isPset i = true) →
    ∃ u, step s = .next u ∧ u.pc = t.nextPc ∧ u.nextPc = u.pc ∧ u.ticks = s.ticks + declaredCost i ∧
      u.np.toNat = (if isPset i = true then t.np.toNat else u.pc.toNat / 256) ∧
      (u.stop = true ↔ u.pc ∈ s.breakpoints) ∧
      u.a = t.a ∧ u.b = t.b ∧ u.x = t.x ∧ u.y = t.y ∧ u.sp = t.sp ∧ u.f = t.f ∧ u.mem = t.mem ∧
      u.callDepth = t.callDepth ∧ u.run = .ready ∧ u.outputs = t.outputs ∧
      u.ptReload = t.ptReload ∧ u.ptEnabled = t.ptEnabled ∧
      let serviced := serviceProgTimer (serviceClockTimer { t with ticks := s.ticks + declaredCost i })
      u.slots = serviced.slots ∧ u.ptData = serviced.ptData ∧ u.ptStamp = serviced.ptStamp ∧
        u.clkStamp = serviced.clkStamp

/-- When `I = 1` after the instruction and it is not `PSET`, the step services the triggered slots after the timers and
before the breakpoint scan (R80, R87, R88, R89); the timers are the clock timer, then the programmable timer (R321). -/
def Obligations.StepServicesInterruptsAfterTimers : Prop :=
  (∀ s : State, serviceTimers s = serviceProgTimer (serviceClockTimer s)) ∧
  ∀ (s t : State) (i : Instr), s.run = .ready → s.pc.toNat < s.params.romWords → decode (s.romWord s.pc) = .ok i →
    exec i { s with nextPc := s.pc + 1 } = .next t → t.run = .ready → t.flagI = true → isPset i = false →
    ∃ u, step s = .next u ∧
      let before := serviceTimers { t with
        pc := t.nextPc, ticks := t.ticks + declaredCost i, np := pcBankPage t.nextPc }
      let after := processInterrupts before
      u = { after with nextPc := after.pc, stop := s.breakpoints.contains after.pc }

/-- `HALT` and `SLP` end execution: nothing is committed, no tick is counted, and no further step changes anything (R90,
R122, R123). -/
def Obligations.HaltEndsExecution : Prop :=
  ∀ (s : State) (i : Instr), s.run = .ready → s.nextPc = s.pc → s.pc.toNat < s.params.romWords →
    decode (s.romWord s.pc) = .ok i → (i = .halt ∨ i = .slp) →
    ∃ u, step s = .next u ∧ u = { s with run := .stopped, stop := true, outputs := s.outputs ++ [.halt] } ∧
      step u = .next u

/-- The two faults of the decoding phase, and a step when not `Ready` (R81, R82, R90, R300, R301): nothing else changes. That a
fault is a next state with `run` set, and that the value a step returns is the field `stop`, are forms the model chose (log
entries 4 and 7). -/
def Obligations.FaultsChangeNothingElse : Prop :=
  ∀ s : State,
    (s.run = .ready → s.params.romWords ≤ s.pc.toNat →
      step s = .next { s with run := .fault (.fetchOutOfRange s.pc), stop := true }) ∧
    (s.run = .ready → s.pc.toNat < s.params.romWords → (∀ i, decode (s.romWord s.pc) ≠ .ok i) →
      step s = .next { s with run := .fault (.decodeFailure (s.romWord s.pc)), stop := true }) ∧
    (s.run ≠ .ready → step s = .next { s with stop := true })

/-- Only reset leaves `Stopped` and `Fault` (R27, R90, R300, R301, R341). -/
def Obligations.OnlyResetLeavesAStop : Prop :=
  (∀ s t : State, s.run ≠ .ready → step s = .next t → t.run = s.run) ∧
  (∀ (s : State) (e : HostEvent), e ≠ .reset → (applyHostEvent e s).run = s.run) ∧
  (∀ s : State, (applyHostEvent .reset s).run = .ready)

/-! ### Frames -/

/-- The registers an instruction leaves alone (R91 and every rule's "Operation"): `A`, `B`, `X`, `Y`, `SP`, `F`. -/
def Obligations.InstructionsLeaveOtherRegistersAlone : Prop :=
  ∀ (i : Instr) (s t : State), exec i s = .next t →
    (destOperand i ≠ some .a → t.a = s.a) ∧ (destOperand i ≠ some .b → t.b = s.b) ∧
    (writesX i = false → t.x = s.x) ∧ (writesY i = false → t.y = s.y) ∧ (writesSP i = false → t.sp = s.sp) ∧
    t.f &&& ~~~flagsWritten i = s.f &&& ~~~flagsWritten i

/-- The cells an instruction leaves alone (R42, R44): every cell outside the addresses it stores to, and every address
without a cell; a read there answers as before unless it is an I/O register. -/
def Obligations.InstructionsLeaveOtherCellsAlone : Prop :=
  ∀ (i : Instr) (s t : State), exec i s = .next t →
    ∀ k : DataAddr, (k ∉ storedAddrs i s ∨ s.backed k = false) →
      t.cell k = s.cell k ∧ (s.ioAccess k = false → (memRead k t).1 = (memRead k s).1)

/-- The device registers and the outputs change only through an I/O or a display access (R91, R47, R48): if no address the
instruction reads or stores to is an I/O access, the slots and the timer are unchanged; if it stores to no display cell
either and does not stop the machine, nothing is emitted. -/
def Obligations.InstructionsTouchDevicesOnlyThroughAccesses : Prop :=
  ∀ (i : Instr) (s t : State), exec i s = .next t →
    (∀ k ∈ readAddrs i s ++ storedAddrs i s, s.ioAccess k = false) →
    SameDevices s t ∧
    ((∀ k ∈ storedAddrs i s, s.displayAccess k = false) → i ≠ .halt → i ≠ .slp → t.outputs = s.outputs)

/-- What no handler writes (R54, R91): `PC`, `ticks`, the clock stamp, the pins, the ROM, the breakpoints, the parameters;
`NP` but by `PSET`, `call_depth` but by calls and returns, `next_pc` but by transfers, `run` but by `HALT` and `SLP`. -/
def Obligations.InstructionsNeverWriteStepState : Prop :=
  ∀ (i : Instr) (s t : State), exec i s = .next t →
    t.pc = s.pc ∧ t.ticks = s.ticks ∧ t.clkStamp = s.clkStamp ∧ t.k0 = s.k0 ∧ t.k1 = s.k1 ∧ t.rom = s.rom ∧
    t.breakpoints = s.breakpoints ∧ t.params = s.params ∧ t.stop = s.stop ∧
    (isPset i = false → t.np = s.np) ∧
    (isCall i = false → isReturn i = false → t.callDepth = s.callDepth ∧ (isJump i = false → t.nextPc = s.nextPc)) ∧
    (i ≠ .halt → i ≠ .slp → t.run = s.run)

/-- A running program cannot change the ROM, the breakpoints, the parameters or the pins (R51, R54). -/
def Obligations.StepKeepsWhatTheHostOwns : Prop :=
  ∀ s t : State, step s = .next t →
    t.rom = s.rom ∧ t.breakpoints = s.breakpoints ∧ t.params = s.params ∧ t.k0 = s.k0 ∧ t.k1 = s.k1 ∧
    s.ticks ≤ t.ticks ∧ ∃ es, t.outputs = s.outputs ++ es

/-! ### Memory and I/O (spec/20_memory.md, spec/60_exceptions.md) -/

/-- The four ranges and the default map (R40), and which access an address gets (R43, R44); "Writes outside all declared ranges are silently ignored; reads outside all ranges return
0." (R42) -/
def Obligations.HolesReadZeroAndDropWrites : Prop :=
  ∀ (s : State) (k : DataAddr) (n : Nibble),
    (s.inRam k = false → s.inDisplay k = false → s.inIo k = false → memRead k s = (0, s) ∧ memWrite k n s = s) ∧
    (s.inRam k = true ↔ s.params.map.ram.lo ≤ k.toNat ∧ k.toNat ≤ s.params.map.ram.hi) ∧
    (s.inDisplay k = true ↔ s.params.map.disp1.lo ≤ k.toNat ∧ k.toNat ≤ s.params.map.disp1.hi ∨
      s.params.map.disp2.lo ≤ k.toNat ∧ k.toNat ≤ s.params.map.disp2.hi) ∧
    (s.inIo k = true ↔ s.params.map.io.lo ≤ k.toNat ∧ k.toNat ≤ s.params.map.io.hi) ∧
    (s.backed k = true ↔ s.inRam k = true ∨ s.inDisplay k = true ∨ s.inIo k = true) ∧
    (s.displayAccess k = true ↔ s.inRam k = false ∧ s.inDisplay k = true) ∧
    (s.ioAccess k = true ↔ s.inRam k = false ∧ s.inDisplay k = false ∧ s.inIo k = true) ∧
    State.reset.params.map = standardMap ∧
    (s.params.map = standardMap →
      (s.inRam k = true ↔ k.toNat ≤ 0x27F) ∧
      (s.inDisplay k = true ↔ 0xE00 ≤ k.toNat ∧ k.toNat ≤ 0xE4F ∨ 0xE80 ≤ k.toNat ∧ k.toNat ≤ 0xECF) ∧
      (s.inIo k = true ↔ 0xF00 ≤ k.toNat ∧ k.toNat ≤ 0xF7F))

/-- RAM and the display banks read as their cells; a write there reads back, and touches no other cell (R43, R44). -/
def Obligations.WrittenCellsReadBack : Prop :=
  ∀ (s : State) (k m : DataAddr) (n : Nibble), Memory.wf s.mem = true → (s.inRam k = true ∨ s.inDisplay k = true) →
    (memRead k s).1 = s.cell k ∧ (memRead k (memWrite k n s)).1 = n ∧ (memRead k s).2 = s ∧
    (m ≠ k → s.ioAccess m = false → (memRead m (memWrite k n s)).1 = (memRead m s).1)

/-- A display write emits its four LCD events (R47); a RAM write emits none. -/
def Obligations.DisplayWritesReachTheLcd : Prop :=
  ∀ (s : State) (k : DataAddr) (n : Nibble),
    (s.displayAccess k = true → (memWrite k n s).outputs = s.outputs ++ (List.range 4).map (fun j =>
      Event.lcdPin (k.toNat / 2 % 64) (8 * (k.toNat / 128 % 2) + 4 * (k.toNat % 2) + j) (n.getLsbD j))) ∧
    (s.inRam k = true → (memWrite k n s).outputs = s.outputs)

/-- Factor-flag registers are read-and-clear (R310): the read answers the factor nibble, clears it, leaves mask and latch
and the other slots alone; a second read answers 0; a write stores the cell and changes no slot. Any instruction that reads the register clears
it, `CP`, `FAN`, `PUSH MX` and the read half of a read-modify-write among them; one that does not read it leaves it. -/
def Obligations.FactorRegistersReadAndClear : Prop :=
  ∀ (s : State) (i : SlotId) (n : Nibble) (q : Reg), s.ioAccess (factorAddr i) = true →
    (memRead (factorAddr i) s).1 = (s.slots.get i).factor ∧
    (memRead (factorAddr i) s).2 = { s with slots := s.slots.set i { s.slots.get i with factor := 0 } } ∧
    (memRead (factorAddr i) (memRead (factorAddr i) s).2).1 = 0 ∧
    memWrite (factorAddr i) n s = s.setCell (factorAddr i) n ∧ (memWrite (factorAddr i) n s).slots = s.slots ∧
    (∀ (j : Instr) (t : State), exec j s = .next t → (t.slots.get i).triggered = (s.slots.get i).triggered ∧
      (t.slots.get i).factor = if factorAddr i ∈ readAddrs j s then 0 else (s.slots.get i).factor) ∧
    (s.x = factorAddr i → ∀ j ∈ [Instr.cpRI .mx n, .cpRQ .mx q, .fanRI .mx n, .fanRQ .mx q, .pushR .mx, .ldRQ q .mx,
      .addRI .mx n, .notR .mx, .rrc .mx, .acpx q, .ldXPr .mx, .ldSPHr .mx],
      ∃ t, exec j s = .next t ∧ (t.slots.get i).factor = 0) ∧
    (s.y = factorAddr i → ∀ j ∈ [Instr.cpRI .my n, .cpRQ q .my, .fanRI .my n, .fanRQ q .my, .pushR .my, .ldRQ q .my,
      .addRI .my n, .notR .my, .rrc .my, .acpy q, .ldYPr .my, .ldSPLr .my],
      ∃ t, exec j s = .next t ∧ (t.slots.get i).factor = 0)

/-- Interrupt-mask registers (R311, R312): the straight read mapping, the swapped write mapping, and no write to slot 3. -/
def Obligations.MaskRegistersReadStraightWriteSwapped : Prop :=
  ∀ (s : State) (n : Nibble), (∀ k : DataAddr, 0xF10 ≤ k.toNat → k.toNat ≤ 0xF15 → s.ioAccess k = true) →
    memRead 0xF10 s = (s.slots.clockTimer.mask, s) ∧ memRead 0xF11 s = (s.slots.stopwatch.mask &&& 3, s) ∧
    memRead 0xF12 s = (s.slots.progTimer.mask &&& 1, s) ∧ memRead 0xF13 s = (s.slots.serial.mask &&& 1, s) ∧
    memRead 0xF14 s = (s.slots.k0Pins.mask, s) ∧ memRead 0xF15 s = (s.slots.k1Pins.mask, s) ∧
    (memWrite 0xF10 n s).slots = s.slots.set .clockTimer { s.slots.clockTimer with mask := n } ∧
    (memWrite 0xF11 n s).slots = s.slots.set .stopwatch { s.slots.stopwatch with mask := n } ∧
    (memWrite 0xF12 n s).slots = s.slots.set .progTimer { s.slots.progTimer with mask := n } ∧
    (memWrite 0xF13 n s).slots = s.slots.set .k1Pins { s.slots.k1Pins with mask := n } ∧
    (memWrite 0xF14 n s).slots = s.slots.set .serial { s.slots.serial with mask := n } ∧
    (memWrite 0xF15 n s).slots = s.slots.set .k1Pins { s.slots.k1Pins with mask := n } ∧
    ∀ k : DataAddr, (memWrite k n s).slots.k0Pins = s.slots.k0Pins

/-- The timer registers (R313), the ports and the other registers (R314 to R318): what each read answers, what each write
does, and the two buzzer events. -/
def Obligations.TimerAndPortRegistersReadAndWrite : Prop :=
  ∀ (s : State) (n : Nibble),
    (∀ k : DataAddr, 0xF24 ≤ k.toNat → k.toNat ≤ 0xF7F → s.ioAccess k = true) →
    (memRead 0xF24 s).1.toNat = s.ptData.toNat % 16 ∧ (memRead 0xF25 s).1.toNat = s.ptData.toNat / 16 ∧
    (memRead 0xF26 s).1.toNat = s.ptReload.toNat % 16 ∧ (memRead 0xF27 s).1.toNat = s.ptReload.toNat / 16 ∧
    (memRead 0xF78 s).1.toNat = s.ptEnabled.toNat ∧
    (memWrite 0xF24 n s).ptData = s.ptData ∧ (memWrite 0xF25 n s).ptData = s.ptData ∧
    (memWrite 0xF26 n s).ptReload.toNat = 16 * (s.ptReload.toNat / 16) + n.toNat ∧
    (memWrite 0xF26 n s).ptData = s.ptData ∧
    (memWrite 0xF27 n s).ptReload.toNat = 16 * n.toNat + s.ptReload.toNat % 16 ∧
    (memWrite 0xF27 n s).ptData = s.ptData ∧
    (memWrite 0xF78 n s).ptEnabled = n.getLsbD 0 ∧
    (memWrite 0xF78 n s).ptData = (if n.getLsbD 1 = true then s.ptReload else s.ptData) ∧
    (memWrite 0xF78 n s).ptStamp = (if n.getLsbD 0 = true ∧ s.ptEnabled = false then s.ticks else s.ptStamp) ∧
    memRead 0xF40 s = (s.k0, s) ∧ memRead 0xF42 s = (s.k1, s) ∧
    memRead 0xF54 s = (s.cell 0xF54, s) ∧ memRead 0xF74 s = (s.cell 0xF74, s) ∧
    memRead 0xF70 s = (s.cell 0xF70, s) ∧ memRead 0xF71 s = (s.cell 0xF71, s) ∧
    memRead 0xF73 s = (s.cell 0xF73 &&& 7, s) ∧ memRead 0xF75 s = (s.cell 0xF75 &&& 3, s) ∧
    (∀ k : DataAddr, s.ioAccess k = true →
      k ∉ [(0xF00 : DataAddr), 0xF01, 0xF02, 0xF03, 0xF04, 0xF05, 0xF10, 0xF11, 0xF12, 0xF13, 0xF14, 0xF15, 0xF24, 0xF25,
        0xF26, 0xF27, 0xF40, 0xF42, 0xF54, 0xF70, 0xF71, 0xF73, 0xF74, 0xF75, 0xF78] → memRead k s = (0, s)) ∧
    (∀ k : DataAddr, s.ioAccess k = true →
      k ∉ [(0xF10 : DataAddr), 0xF11, 0xF12, 0xF13, 0xF14, 0xF15, 0xF26, 0xF27, 0xF54, 0xF74, 0xF78] →
      memWrite k n s = s.setCell k n) ∧
    (memWrite 0xF54 n s).outputs = s.outputs ++ [.buzzerEnable (!n.getLsbD 3)] ∧
    (memWrite 0xF74 n s).outputs = s.outputs ++ [.buzzerFreq (BitVec.ofNat 3 n.toNat)]

/-! ### Interrupts and timers (spec/60_exceptions.md) -/

/-- `GenerateInterrupt` (R304): the factor bit always, the latch exactly when the mask bit is set; nothing else. -/
def Obligations.RaisingSetsFactorAndLatch : Prop :=
  ∀ (s : State) (i : SlotId) (b : BitVec 2), ∃ g : SlotState,
    generateInterrupt i b s = { s with slots := s.slots.set i g } ∧
    (∀ k < 4, g.factor.getLsbD k = ((s.slots.get i).factor.getLsbD k || decide (k = b.toNat))) ∧
    g.mask = (s.slots.get i).mask ∧
    (g.triggered = true ↔ (s.slots.get i).triggered = true ∨ (s.slots.get i).mask.getLsbD b.toNat = true)

/-- `Enter` (R306): pushed `PC`, cleared `I`, page 1 of the same bank, the slot's vector, one deeper, 12 ticks, latch
cleared; `C`, `Z`, `D`, the registers and every factor are unchanged, and the masks where the pushed cells are no I/O
registers. -/
def Obligations.InterruptEntryFollowsTheRule : Prop :=
  ∀ (s : State) (i : SlotId), Memory.wf s.mem = true →
    FrameHolds s.pc s (enterInterrupt i s) ∧ (enterInterrupt i s).sp.toNat = (s.sp.toNat + 253) % 256 ∧
    FlagsAre (enterInterrupt i s) s.flagC s.flagZ s.flagD false ∧
    (enterInterrupt i s).np.toNat = 16 * (s.np.toNat / 16) + 1 ∧
    (enterInterrupt i s).pc.toNat = 4096 * (s.pc.toNat / 4096) + 0x100 +
      (match i with
        | .progTimer => 0x0C | .serial => 0x0A | .k1Pins => 0x08
        | .k0Pins => 0x06 | .stopwatch => 0x04 | .clockTimer => 0x02) ∧
    (enterInterrupt i s).callDepth = s.callDepth + 1 ∧ (enterInterrupt i s).ticks = s.ticks + 12 ∧
    ((enterInterrupt i s).slots.get i).triggered = false ∧
    (∀ j, ((enterInterrupt i s).slots.get j).factor = (s.slots.get j).factor ∧
      (j ≠ i → ((enterInterrupt i s).slots.get j).triggered = (s.slots.get j).triggered) ∧
      ((∀ k ∈ pushFrame s, s.ioAccess k = false) →
        ((enterInterrupt i s).slots.get j).mask = (s.slots.get j).mask)) ∧
    (∀ k, (k ∉ pushFrame s ∨ s.backed k = false) → (enterInterrupt i s).cell k = s.cell k) ∧
    (enterInterrupt i s).a = s.a ∧ (enterInterrupt i s).b = s.b ∧ (enterInterrupt i s).x = s.x ∧
    (enterInterrupt i s).y = s.y

/-- `RET` from an interrupt handler in the interrupted bank comes back to the interrupted address, with `SP` and `call_depth`
as they were and `I` still 0 (R307, R109). -/
def Obligations.ReturnUndoesInterruptEntry : Prop :=
  ∀ (s : State) (i : SlotId) (pc : CodeAddr), Memory.wf s.mem = true → PlainFrame s → pcBank pc = pcBank s.pc →
    ∃ u, exec .ret ((enterInterrupt i s).setPc pc) = .next u ∧ u.nextPc = s.pc ∧ u.sp = s.sp ∧
      u.callDepth = s.callDepth ∧ u.flagI = false

/-- `ProcessInterrupts` (R305, R330): the triggered slots, in the order 0 to 5 of R303, are entered one after another, each from
the state the previous entry left, so that each pushes the `PC` the previous one set; `PC` ends at the vector of the
last of them. -/
def Obligations.EveryTriggeredSlotIsServiced : Prop :=
  slotOrder = [.progTimer, .serial, .k1Pins, .k0Pins, .stopwatch, .clockTimer] ∧
  ∀ s : State,
    triggeredSlots s = [SlotId.progTimer, .serial, .k1Pins, .k0Pins, .stopwatch, .clockTimer].filter
      (fun i => (s.slots.get i).triggered) ∧
    processInterrupts s = (triggeredSlots s).foldl (fun t i => enterInterrupt i t) s ∧
    (processInterrupts s).callDepth = s.callDepth + (triggeredSlots s).length ∧
    (processInterrupts s).ticks = s.ticks + 12 * (triggeredSlots s).length ∧
    (processInterrupts s).sp.toNat = (s.sp.toNat + 253 * (triggeredSlots s).length) % 256 ∧
    (∀ j, ((processInterrupts s).slots.get j).triggered = false ∧
      ((processInterrupts s).slots.get j).factor = (s.slots.get j).factor) ∧
    (triggeredSlots s = [] → processInterrupts s = s) ∧
    (∀ i, (triggeredSlots s).getLast? = some i → (processInterrupts s).flagI = false ∧
      (processInterrupts s).pc.toNat = 4096 * (s.pc.toNat / 4096) + 0x100 + (vectorStep i).toNat)

/-- `SetInputPin` (R309): the pin's level is stored; a fall from 1 to 0, and nothing else, raises the port's slot. -/
def Obligations.FallingEdgesRaiseThePinSlots : Prop :=
  ∀ (s : State) (j : BitVec 2) (level : Bool),
    (∃ k0, setInputPin (0#1 ++ j) level s =
        (if s.k0.getLsbD j.toNat = true ∧ level = false then generateInterrupt .k0Pins j else id) { s with k0 := k0 } ∧
      ∀ k < 4, k0.getLsbD k = if k = j.toNat then level else s.k0.getLsbD k) ∧
    (∃ k1, setInputPin (1#1 ++ j) level s =
        (if s.k1.getLsbD j.toNat = true ∧ level = false then generateInterrupt .k1Pins j else id) { s with k1 := k1 } ∧
      ∀ k < 4, k1.getLsbD k = if k = j.toNat then level else s.k1.getLsbD k)

/-- The clock timer (R321, R322, R324): every elapsed period is applied, none is lost; if any elapsed, bit 3 of slot 5 is
raised, and the slot latches if its mask bit is set. -/
def Obligations.ClockTimerAppliesEveryPeriod : Prop :=
  State.reset.params.clkPeriod = 32768 ∧ ∀ s : State, 0 < s.params.clkPeriod → s.clkStamp ≤ s.ticks →
    ∃ n g, serviceClockTimer s =
        { s with clkStamp := s.clkStamp + n * s.params.clkPeriod, slots := s.slots.set .clockTimer g } ∧
      s.clkStamp + n * s.params.clkPeriod ≤ s.ticks ∧ s.ticks < s.clkStamp + n * s.params.clkPeriod + s.params.clkPeriod ∧
      (n = 0 → g = s.slots.clockTimer) ∧
      (0 < n → g.factor = s.slots.clockTimer.factor ||| 8 ∧ g.mask = s.slots.clockTimer.mask ∧
        (g.triggered = true ↔ s.slots.clockTimer.triggered = true ∨ s.slots.clockTimer.mask.getLsbD 3 = true))

/-- The programmable timer (R321, R323, R324): while disabled nothing; while enabled every elapsed period counts down by 1
modulo 256, and reaching 0 reloads and raises bit 0 of slot 0. A count of 0 needs 256 periods. Nothing but its stamp, its
count and the slots is written. -/
def Obligations.ProgrammableTimerCountsDownAndReloads : Prop :=
  State.reset.params.progPeriod = 128 ∧ ∀ s : State, 0 < s.params.progPeriod → s.ptStamp ≤ s.ticks →
    (∃ stamp count slots, serviceProgTimer s = { s with ptStamp := stamp, ptData := count, slots := slots }) ∧
    (s.ptEnabled = false → serviceProgTimer s = s) ∧
    (s.ptEnabled = true → ∃ n, (serviceProgTimer s).ptStamp = s.ptStamp + n * s.params.progPeriod ∧
      s.ptStamp + n * s.params.progPeriod ≤ s.ticks ∧ s.ticks < s.ptStamp + n * s.params.progPeriod + s.params.progPeriod ∧
      let first := (s.ptData.toNat + 255) % 256 + 1
      let later := (s.ptReload.toNat + 255) % 256 + 1
      (n < first → (serviceProgTimer s).slots = s.slots ∧
        (serviceProgTimer s).ptData.toNat = (s.ptData.toNat + 256 - n) % 256) ∧
      (first ≤ n → ∃ g, (serviceProgTimer s).slots = s.slots.set .progTimer g ∧
        (serviceProgTimer s).ptData.toNat = (s.ptReload.toNat + 256 - (n - first) % later) % 256 ∧
        g.factor = s.slots.progTimer.factor ||| 1 ∧ g.mask = s.slots.progTimer.mask ∧
        (g.triggered = true ↔ s.slots.progTimer.triggered = true ∨ s.slots.progTimer.mask.getLsbD 0 = true)))

/-! ### Reset (spec/70_reset_and_hazards.md) -/

/-- The reset state (R28, R350), with the default parameters; a requested reset gives it in any run state, and keeps the ROM,
the breakpoints and the parameters (R351). The zero registers are what the document's "zeroes all
registers/flags/memory" gives (log entry 3). -/
def Obligations.ResetLeavesTheStatedValues : Prop :=
  State.reset.pc = 0x0100 ∧ State.reset.np = 0x01 ∧ State.reset.a = 0 ∧ State.reset.b = 0 ∧ State.reset.x = 0 ∧
  State.reset.y = 0 ∧ State.reset.sp = 0 ∧ State.reset.f = 0 ∧
  (∀ k : DataAddr, State.reset.cell k = if k = 0xF54 then 0xF else if k = 0xF71 then 0x8 else 0) ∧
  (∀ i, State.reset.slots.get i = ⟨0, 0, false⟩) ∧ State.reset.ptReload = 0 ∧ State.reset.ptData = 0 ∧
  State.reset.ptEnabled = false ∧ State.reset.ptStamp = 0 ∧ State.reset.clkStamp = 0 ∧ State.reset.ticks = 0 ∧
  State.reset.k0 = 0 ∧ State.reset.k1 = 0 ∧ State.reset.callDepth = 0 ∧ State.reset.run = .ready ∧
  ∀ s : State, resetRequest s = { State.reset with
    rom := s.rom, breakpoints := s.breakpoints, params := s.params, outputs := s.outputs,
    k0 := s.params.pins0.extractLsb' 0 4, k1 := s.params.pins0.extractLsb' 4 4 }

/-! ### The invariant -/

/-- Every step keeps the invariant, from any state that has it. -/
def Obligations.InvariantKeptByEveryStep : Prop :=
  ∀ s t : State, s.Inv → step s = .next t → t.Inv

/-- So does every host event. -/
def Obligations.InvariantKeptByEveryHostEvent : Prop :=
  ∀ (s : State) (e : HostEvent), s.Inv → (applyHostEvent e s).Inv

/-- The reset state has it. -/
def Obligations.InvariantHoldsAtReset : Prop := State.reset.Inv

/-! ### Encoding (spec/30_encoding.md) -/

/-- Decoding an encoded well-formed instruction gives it back, every operand at every value. -/
def Obligations.DecodeOfEncode : Prop :=
  ∀ i : Instr, i.wellFormed = true → decode (encode i) = .ok i

/-- Every legal word is the encoding of the one well-formed instruction it decodes to (R62), and exactly the 61 words of R68
are illegal. -/
def Obligations.LegalWordsAreEncodings : Prop :=
  (∀ (w : InstrWord) (i : Instr), decode w = .ok i → i.wellFormed = true ∧ encode i = w) ∧
  ∀ w : InstrWord, (∀ i, decode w ≠ .ok i) ↔
    (0xE9C ≤ w.toNat ∧ w.toNat ≤ 0xE9F ∨ 0xEAC ≤ w.toNat ∧ w.toNat ≤ 0xEAF ∨ 0xEBC ≤ w.toNat ∧ w.toNat ≤ 0xEBF ∨
      0xED0 ≤ w.toNat ∧ w.toNat ≤ 0xEDF ∨ 0xF20 ≤ w.toNat ∧ w.toNat ≤ 0xF27 ∨ 0xF30 ≤ w.toNat ∧ w.toNat ≤ 0xF37 ∨
      0xFCC ≤ w.toNat ∧ w.toNat ≤ 0xFCF ∨ 0xFDC ≤ w.toNat ∧ w.toNat ≤ 0xFDD ∨ 0xFE9 ≤ w.toNat ∧ w.toNat ≤ 0xFEF ∨
      w.toNat = 0xFFA ∨ 0xFFC ≤ w.toNat ∧ w.toNat ≤ 0xFFE)

/-- The fourteen words that match two descriptors have the same effect and cost under both (R67). -/
def Obligations.OverlappingDescriptorsAgree : Prop :=
  ∀ (s : State) (r : Reg), ∀ p ∈ [(Instr.notR r, Instr.xorRI r 0xF), (.incX, .ldpxRQ .a .a), (.incY, .ldpyRQ .a .a),
      (.scf, .setF 1), (.szf, .setF 2), (.sdf, .setF 4), (.ei, .setF 8),
      (.rcf, .rstF 0xE), (.rzf, .rstF 0xD), (.rdf, .rstF 0xB), (.di, .rstF 7)],
    exec p.1 s = exec p.2 s ∧ p.1.cycles = p.2.cycles ∧ encode p.1 = encode p.2 ∧
      decode (encode p.1) = .ok p.1

/-- A few words written out from the examples of the spec decode as it says. -/
def Obligations.WrittenOutWordsDecode : Prop :=
  decode 0xE42 = .ok (.pset 2) ∧ decode 0x410 = .ok (.call 0x10) ∧ decode 0xE03 = .ok (.ldRI .a 3) ∧
  decode 0xA13 = .ok (.adcXL 3) ∧ decode 0xF4C = .ok (.setF 0xC) ∧ decode 0xFC0 = .ok (.pushR .a) ∧
  decode 0xA96 = .ok (.adcRQ .b .mx) ∧ decode 0xFF8 = .ok .halt

/-! ### Accesses (spec/20_memory.md, spec/40_execution_cycle.md R92) -/

/-- Every read and every store of an instruction is an access with the effects of its address (R13, R43, R44, R92): the cells, the
device registers and the outputs after it are those that its rule's reads and then its stores, in the rule's order, leave.
The halt indication of `HALT` and `SLP` is no access. -/
def Obligations.AccessesHaveTheirAddressEffects : Prop :=
  ∀ (i : Instr) (s t : State), Memory.wf s.mem = true → exec i s = .next t →
    t.mem = (accessed i s t).mem ∧ SameDevices (accessed i s t) t ∧
      (i ≠ .halt → i ≠ .slp → t.outputs = (accessed i s t).outputs)
end

