-- ==== Sys2Proof/Laws/Fields.lean ====
section
/-! SUPPORT. The laws of the nibble fields of the wider registers. -/

namespace Sys2Proof.Machine

/-- An index register is its page, high and low nibbles (R11). -/
theorem idx_parts (v : DataAddr) : v.toNat = 256 * (idxPage v).toNat + 16 * (idxHigh v).toNat + (idxLow v).toNat := by
  simp only [idxPage, idxHigh, idxLow, BitVec.extractLsb'_toNat, Nat.shiftRight_eq_div_pow]
  omega

/-- What the three nibbles of an index register are after it has been put together (R11). -/
@[simp] theorem idxOfNibbles_parts (p h l : Nibble) : idxPage (idxOfNibbles p h l) = p ∧
    idxHigh (idxOfNibbles p h l) = h ∧ idxLow (idxOfNibbles p h l) = l := by
  revert p h l; decide +kernel

/-- What the page and the low 8 bits are after they have been put together. -/
@[simp] theorem idxOfPageHL_parts (p : Nibble) (hl : Octet) : idxPage (idxOfPageHL p hl) = p ∧
    idxHL (idxOfPageHL p hl) = hl := by
  revert p hl; decide +kernel

/-- The page and the low 8 bits as numbers. -/
theorem idxOfPageHL_toNat (p : Nibble) (hl : Octet) : (idxOfPageHL p hl).toNat = 256 * p.toNat + hl.toNat := by
  revert p hl; decide +kernel

/-- A post-increment keeps the page and wraps the low 8 bits (R11). -/
theorem idxAdd_toNat (v : DataAddr) (n : Octet) :
    (idxAdd v n).toNat / 256 = v.toNat / 256 ∧ (idxAdd v n).toNat % 256 = (v.toNat % 256 + n.toNat) % 256 := by
  have h1 := (idxPage v).isLt
  have h2 : (idxPage v).toNat = v.toNat / 256 := by
    have := v.isLt
    simp only [idxPage, BitVec.extractLsb'_toNat, Nat.shiftRight_eq_div_pow]
    omega
  have h3 : (idxHL v).toNat = v.toNat % 256 := by simp [idxHL, BitVec.extractLsb'_toNat]
  have h4 : (idxHL v + n).toNat = (v.toNat % 256 + n.toNat) % 256 := by rw [BitVec.toNat_add, h3]
  have h5 := (idxHL v + n).isLt
  simp only [idxAdd, idxOfPageHL_toNat]
  omega

/-- Two increments of the low 8 bits are one. -/
theorem idxAdd_idxAdd (v : DataAddr) (m n : Octet) : idxAdd (idxAdd v m) n = idxAdd v (m + n) := by
  simp [idxAdd, BitVec.add_assoc]

/-- What the two nibbles of `SP` are after one has been replaced (R12). -/
@[simp] theorem spSet_parts (v : Octet) (n : Nibble) : spHigh (spSetHigh v n) = n ∧ spLow (spSetHigh v n) = spLow v ∧
    spHigh (spSetLow v n) = spHigh v ∧ spLow (spSetLow v n) = n := by
  revert v n; decide +kernel

/-- The bank bit and the page of a program address put together from its three fields (R15). -/
@[simp] theorem codeAddrOf_parts (b : BitVec 1) (p : Nibble) (s : Octet) : pcBank (codeAddrOf b p s) = b ∧
    pcBankPage (codeAddrOf b p s) = bankPageOf b p ∧ (codeAddrOf b p s).extractLsb' 0 8 = s := by
  revert b p s; decide +kernel

/-- The bank and the page of `NP` put together (R16). -/
@[simp] theorem bankPageOf_parts (b : BitVec 1) (p : Nibble) : npBank (bankPageOf b p) = b ∧ npPage (bankPageOf b p) = p := by
  revert b p; decide

/-- Splitting a program address into the three nibbles a call saves and its bank bit, and putting it together again, is the
identity (R112). -/
theorem codeAddr_rebuild (v : CodeAddr) :
    codeAddrOf (pcBank v) (v.extractLsb' 8 4) (v.extractLsb' 4 4 ++ v.extractLsb' 0 4) = v := by
  revert v; decide +kernel

/-- The stack address of a stack-pointer value is that number (R12). -/
@[simp] theorem stackAddr_toNat (v : Octet) : (v.setWidth 12).toNat = v.toNat := by
  simp only [BitVec.toNat_setWidth]; omega

end Sys2Proof.Machine
end

