-- ==== Sys2Proof/Laws/State.lean ====
section
/-! SUPPORT. One lemma per field per update of State, so that no later proof unfolds a record update. -/

namespace Sys2Proof.Machine

@[simp] theorem State.setA_a (s : State) (v : Nibble) : (s.setA v).a = v := rfl
@[simp] theorem State.setA_b (s : State) (v : Nibble) : (s.setA v).b = s.b := rfl
@[simp] theorem State.setA_x (s : State) (v : Nibble) : (s.setA v).x = s.x := rfl
@[simp] theorem State.setA_y (s : State) (v : Nibble) : (s.setA v).y = s.y := rfl
@[simp] theorem State.setA_sp (s : State) (v : Nibble) : (s.setA v).sp = s.sp := rfl
@[simp] theorem State.setA_f (s : State) (v : Nibble) : (s.setA v).f = s.f := rfl
@[simp] theorem State.setA_pc (s : State) (v : Nibble) : (s.setA v).pc = s.pc := rfl
@[simp] theorem State.setA_np (s : State) (v : Nibble) : (s.setA v).np = s.np := rfl
@[simp] theorem State.setA_nextPc (s : State) (v : Nibble) : (s.setA v).nextPc = s.nextPc := rfl
@[simp] theorem State.setA_mem (s : State) (v : Nibble) : (s.setA v).mem = s.mem := rfl
@[simp] theorem State.setA_rom (s : State) (v : Nibble) : (s.setA v).rom = s.rom := rfl
@[simp] theorem State.setA_slots (s : State) (v : Nibble) : (s.setA v).slots = s.slots := rfl
@[simp] theorem State.setA_ptReload (s : State) (v : Nibble) : (s.setA v).ptReload = s.ptReload := rfl
@[simp] theorem State.setA_ptData (s : State) (v : Nibble) : (s.setA v).ptData = s.ptData := rfl
@[simp] theorem State.setA_ptEnabled (s : State) (v : Nibble) : (s.setA v).ptEnabled = s.ptEnabled := rfl
@[simp] theorem State.setA_ptStamp (s : State) (v : Nibble) : (s.setA v).ptStamp = s.ptStamp := rfl
@[simp] theorem State.setA_clkStamp (s : State) (v : Nibble) : (s.setA v).clkStamp = s.clkStamp := rfl
@[simp] theorem State.setA_ticks (s : State) (v : Nibble) : (s.setA v).ticks = s.ticks := rfl
@[simp] theorem State.setA_k0 (s : State) (v : Nibble) : (s.setA v).k0 = s.k0 := rfl
@[simp] theorem State.setA_k1 (s : State) (v : Nibble) : (s.setA v).k1 = s.k1 := rfl
@[simp] theorem State.setA_callDepth (s : State) (v : Nibble) : (s.setA v).callDepth = s.callDepth := rfl
@[simp] theorem State.setA_run (s : State) (v : Nibble) : (s.setA v).run = s.run := rfl
@[simp] theorem State.setA_breakpoints (s : State) (v : Nibble) : (s.setA v).breakpoints = s.breakpoints := rfl
@[simp] theorem State.setA_params (s : State) (v : Nibble) : (s.setA v).params = s.params := rfl
@[simp] theorem State.setA_outputs (s : State) (v : Nibble) : (s.setA v).outputs = s.outputs := rfl
@[simp] theorem State.setA_stop (s : State) (v : Nibble) : (s.setA v).stop = s.stop := rfl

@[simp] theorem State.setB_a (s : State) (v : Nibble) : (s.setB v).a = s.a := rfl
@[simp] theorem State.setB_b (s : State) (v : Nibble) : (s.setB v).b = v := rfl
@[simp] theorem State.setB_x (s : State) (v : Nibble) : (s.setB v).x = s.x := rfl
@[simp] theorem State.setB_y (s : State) (v : Nibble) : (s.setB v).y = s.y := rfl
@[simp] theorem State.setB_sp (s : State) (v : Nibble) : (s.setB v).sp = s.sp := rfl
@[simp] theorem State.setB_f (s : State) (v : Nibble) : (s.setB v).f = s.f := rfl
@[simp] theorem State.setB_pc (s : State) (v : Nibble) : (s.setB v).pc = s.pc := rfl
@[simp] theorem State.setB_np (s : State) (v : Nibble) : (s.setB v).np = s.np := rfl
@[simp] theorem State.setB_nextPc (s : State) (v : Nibble) : (s.setB v).nextPc = s.nextPc := rfl
@[simp] theorem State.setB_mem (s : State) (v : Nibble) : (s.setB v).mem = s.mem := rfl
@[simp] theorem State.setB_rom (s : State) (v : Nibble) : (s.setB v).rom = s.rom := rfl
@[simp] theorem State.setB_slots (s : State) (v : Nibble) : (s.setB v).slots = s.slots := rfl
@[simp] theorem State.setB_ptReload (s : State) (v : Nibble) : (s.setB v).ptReload = s.ptReload := rfl
@[simp] theorem State.setB_ptData (s : State) (v : Nibble) : (s.setB v).ptData = s.ptData := rfl
@[simp] theorem State.setB_ptEnabled (s : State) (v : Nibble) : (s.setB v).ptEnabled = s.ptEnabled := rfl
@[simp] theorem State.setB_ptStamp (s : State) (v : Nibble) : (s.setB v).ptStamp = s.ptStamp := rfl
@[simp] theorem State.setB_clkStamp (s : State) (v : Nibble) : (s.setB v).clkStamp = s.clkStamp := rfl
@[simp] theorem State.setB_ticks (s : State) (v : Nibble) : (s.setB v).ticks = s.ticks := rfl
@[simp] theorem State.setB_k0 (s : State) (v : Nibble) : (s.setB v).k0 = s.k0 := rfl
@[simp] theorem State.setB_k1 (s : State) (v : Nibble) : (s.setB v).k1 = s.k1 := rfl
@[simp] theorem State.setB_callDepth (s : State) (v : Nibble) : (s.setB v).callDepth = s.callDepth := rfl
@[simp] theorem State.setB_run (s : State) (v : Nibble) : (s.setB v).run = s.run := rfl
@[simp] theorem State.setB_breakpoints (s : State) (v : Nibble) : (s.setB v).breakpoints = s.breakpoints := rfl
@[simp] theorem State.setB_params (s : State) (v : Nibble) : (s.setB v).params = s.params := rfl
@[simp] theorem State.setB_outputs (s : State) (v : Nibble) : (s.setB v).outputs = s.outputs := rfl
@[simp] theorem State.setB_stop (s : State) (v : Nibble) : (s.setB v).stop = s.stop := rfl

@[simp] theorem State.setX_a (s : State) (v : DataAddr) : (s.setX v).a = s.a := rfl
@[simp] theorem State.setX_b (s : State) (v : DataAddr) : (s.setX v).b = s.b := rfl
@[simp] theorem State.setX_x (s : State) (v : DataAddr) : (s.setX v).x = v := rfl
@[simp] theorem State.setX_y (s : State) (v : DataAddr) : (s.setX v).y = s.y := rfl
@[simp] theorem State.setX_sp (s : State) (v : DataAddr) : (s.setX v).sp = s.sp := rfl
@[simp] theorem State.setX_f (s : State) (v : DataAddr) : (s.setX v).f = s.f := rfl
@[simp] theorem State.setX_pc (s : State) (v : DataAddr) : (s.setX v).pc = s.pc := rfl
@[simp] theorem State.setX_np (s : State) (v : DataAddr) : (s.setX v).np = s.np := rfl
@[simp] theorem State.setX_nextPc (s : State) (v : DataAddr) : (s.setX v).nextPc = s.nextPc := rfl
@[simp] theorem State.setX_mem (s : State) (v : DataAddr) : (s.setX v).mem = s.mem := rfl
@[simp] theorem State.setX_rom (s : State) (v : DataAddr) : (s.setX v).rom = s.rom := rfl
@[simp] theorem State.setX_slots (s : State) (v : DataAddr) : (s.setX v).slots = s.slots := rfl
@[simp] theorem State.setX_ptReload (s : State) (v : DataAddr) : (s.setX v).ptReload = s.ptReload := rfl
@[simp] theorem State.setX_ptData (s : State) (v : DataAddr) : (s.setX v).ptData = s.ptData := rfl
@[simp] theorem State.setX_ptEnabled (s : State) (v : DataAddr) : (s.setX v).ptEnabled = s.ptEnabled := rfl
@[simp] theorem State.setX_ptStamp (s : State) (v : DataAddr) : (s.setX v).ptStamp = s.ptStamp := rfl
@[simp] theorem State.setX_clkStamp (s : State) (v : DataAddr) : (s.setX v).clkStamp = s.clkStamp := rfl
@[simp] theorem State.setX_ticks (s : State) (v : DataAddr) : (s.setX v).ticks = s.ticks := rfl
@[simp] theorem State.setX_k0 (s : State) (v : DataAddr) : (s.setX v).k0 = s.k0 := rfl
@[simp] theorem State.setX_k1 (s : State) (v : DataAddr) : (s.setX v).k1 = s.k1 := rfl
@[simp] theorem State.setX_callDepth (s : State) (v : DataAddr) : (s.setX v).callDepth = s.callDepth := rfl
@[simp] theorem State.setX_run (s : State) (v : DataAddr) : (s.setX v).run = s.run := rfl
@[simp] theorem State.setX_breakpoints (s : State) (v : DataAddr) : (s.setX v).breakpoints = s.breakpoints := rfl
@[simp] theorem State.setX_params (s : State) (v : DataAddr) : (s.setX v).params = s.params := rfl
@[simp] theorem State.setX_outputs (s : State) (v : DataAddr) : (s.setX v).outputs = s.outputs := rfl
@[simp] theorem State.setX_stop (s : State) (v : DataAddr) : (s.setX v).stop = s.stop := rfl

@[simp] theorem State.setY_a (s : State) (v : DataAddr) : (s.setY v).a = s.a := rfl
@[simp] theorem State.setY_b (s : State) (v : DataAddr) : (s.setY v).b = s.b := rfl
@[simp] theorem State.setY_x (s : State) (v : DataAddr) : (s.setY v).x = s.x := rfl
@[simp] theorem State.setY_y (s : State) (v : DataAddr) : (s.setY v).y = v := rfl
@[simp] theorem State.setY_sp (s : State) (v : DataAddr) : (s.setY v).sp = s.sp := rfl
@[simp] theorem State.setY_f (s : State) (v : DataAddr) : (s.setY v).f = s.f := rfl
@[simp] theorem State.setY_pc (s : State) (v : DataAddr) : (s.setY v).pc = s.pc := rfl
@[simp] theorem State.setY_np (s : State) (v : DataAddr) : (s.setY v).np = s.np := rfl
@[simp] theorem State.setY_nextPc (s : State) (v : DataAddr) : (s.setY v).nextPc = s.nextPc := rfl
@[simp] theorem State.setY_mem (s : State) (v : DataAddr) : (s.setY v).mem = s.mem := rfl
@[simp] theorem State.setY_rom (s : State) (v : DataAddr) : (s.setY v).rom = s.rom := rfl
@[simp] theorem State.setY_slots (s : State) (v : DataAddr) : (s.setY v).slots = s.slots := rfl
@[simp] theorem State.setY_ptReload (s : State) (v : DataAddr) : (s.setY v).ptReload = s.ptReload := rfl
@[simp] theorem State.setY_ptData (s : State) (v : DataAddr) : (s.setY v).ptData = s.ptData := rfl
@[simp] theorem State.setY_ptEnabled (s : State) (v : DataAddr) : (s.setY v).ptEnabled = s.ptEnabled := rfl
@[simp] theorem State.setY_ptStamp (s : State) (v : DataAddr) : (s.setY v).ptStamp = s.ptStamp := rfl
@[simp] theorem State.setY_clkStamp (s : State) (v : DataAddr) : (s.setY v).clkStamp = s.clkStamp := rfl
@[simp] theorem State.setY_ticks (s : State) (v : DataAddr) : (s.setY v).ticks = s.ticks := rfl
@[simp] theorem State.setY_k0 (s : State) (v : DataAddr) : (s.setY v).k0 = s.k0 := rfl
@[simp] theorem State.setY_k1 (s : State) (v : DataAddr) : (s.setY v).k1 = s.k1 := rfl
@[simp] theorem State.setY_callDepth (s : State) (v : DataAddr) : (s.setY v).callDepth = s.callDepth := rfl
@[simp] theorem State.setY_run (s : State) (v : DataAddr) : (s.setY v).run = s.run := rfl
@[simp] theorem State.setY_breakpoints (s : State) (v : DataAddr) : (s.setY v).breakpoints = s.breakpoints := rfl
@[simp] theorem State.setY_params (s : State) (v : DataAddr) : (s.setY v).params = s.params := rfl
@[simp] theorem State.setY_outputs (s : State) (v : DataAddr) : (s.setY v).outputs = s.outputs := rfl
@[simp] theorem State.setY_stop (s : State) (v : DataAddr) : (s.setY v).stop = s.stop := rfl

@[simp] theorem State.setSp_a (s : State) (v : Octet) : (s.setSp v).a = s.a := rfl
@[simp] theorem State.setSp_b (s : State) (v : Octet) : (s.setSp v).b = s.b := rfl
@[simp] theorem State.setSp_x (s : State) (v : Octet) : (s.setSp v).x = s.x := rfl
@[simp] theorem State.setSp_y (s : State) (v : Octet) : (s.setSp v).y = s.y := rfl
@[simp] theorem State.setSp_sp (s : State) (v : Octet) : (s.setSp v).sp = v := rfl
@[simp] theorem State.setSp_f (s : State) (v : Octet) : (s.setSp v).f = s.f := rfl
@[simp] theorem State.setSp_pc (s : State) (v : Octet) : (s.setSp v).pc = s.pc := rfl
@[simp] theorem State.setSp_np (s : State) (v : Octet) : (s.setSp v).np = s.np := rfl
@[simp] theorem State.setSp_nextPc (s : State) (v : Octet) : (s.setSp v).nextPc = s.nextPc := rfl
@[simp] theorem State.setSp_mem (s : State) (v : Octet) : (s.setSp v).mem = s.mem := rfl
@[simp] theorem State.setSp_rom (s : State) (v : Octet) : (s.setSp v).rom = s.rom := rfl
@[simp] theorem State.setSp_slots (s : State) (v : Octet) : (s.setSp v).slots = s.slots := rfl
@[simp] theorem State.setSp_ptReload (s : State) (v : Octet) : (s.setSp v).ptReload = s.ptReload := rfl
@[simp] theorem State.setSp_ptData (s : State) (v : Octet) : (s.setSp v).ptData = s.ptData := rfl
@[simp] theorem State.setSp_ptEnabled (s : State) (v : Octet) : (s.setSp v).ptEnabled = s.ptEnabled := rfl
@[simp] theorem State.setSp_ptStamp (s : State) (v : Octet) : (s.setSp v).ptStamp = s.ptStamp := rfl
@[simp] theorem State.setSp_clkStamp (s : State) (v : Octet) : (s.setSp v).clkStamp = s.clkStamp := rfl
@[simp] theorem State.setSp_ticks (s : State) (v : Octet) : (s.setSp v).ticks = s.ticks := rfl
@[simp] theorem State.setSp_k0 (s : State) (v : Octet) : (s.setSp v).k0 = s.k0 := rfl
@[simp] theorem State.setSp_k1 (s : State) (v : Octet) : (s.setSp v).k1 = s.k1 := rfl
@[simp] theorem State.setSp_callDepth (s : State) (v : Octet) : (s.setSp v).callDepth = s.callDepth := rfl
@[simp] theorem State.setSp_run (s : State) (v : Octet) : (s.setSp v).run = s.run := rfl
@[simp] theorem State.setSp_breakpoints (s : State) (v : Octet) : (s.setSp v).breakpoints = s.breakpoints := rfl
@[simp] theorem State.setSp_params (s : State) (v : Octet) : (s.setSp v).params = s.params := rfl
@[simp] theorem State.setSp_outputs (s : State) (v : Octet) : (s.setSp v).outputs = s.outputs := rfl
@[simp] theorem State.setSp_stop (s : State) (v : Octet) : (s.setSp v).stop = s.stop := rfl

@[simp] theorem State.setF_a (s : State) (v : Nibble) : (s.setF v).a = s.a := rfl
@[simp] theorem State.setF_b (s : State) (v : Nibble) : (s.setF v).b = s.b := rfl
@[simp] theorem State.setF_x (s : State) (v : Nibble) : (s.setF v).x = s.x := rfl
@[simp] theorem State.setF_y (s : State) (v : Nibble) : (s.setF v).y = s.y := rfl
@[simp] theorem State.setF_sp (s : State) (v : Nibble) : (s.setF v).sp = s.sp := rfl
@[simp] theorem State.setF_f (s : State) (v : Nibble) : (s.setF v).f = v := rfl
@[simp] theorem State.setF_pc (s : State) (v : Nibble) : (s.setF v).pc = s.pc := rfl
@[simp] theorem State.setF_np (s : State) (v : Nibble) : (s.setF v).np = s.np := rfl
@[simp] theorem State.setF_nextPc (s : State) (v : Nibble) : (s.setF v).nextPc = s.nextPc := rfl
@[simp] theorem State.setF_mem (s : State) (v : Nibble) : (s.setF v).mem = s.mem := rfl
@[simp] theorem State.setF_rom (s : State) (v : Nibble) : (s.setF v).rom = s.rom := rfl
@[simp] theorem State.setF_slots (s : State) (v : Nibble) : (s.setF v).slots = s.slots := rfl
@[simp] theorem State.setF_ptReload (s : State) (v : Nibble) : (s.setF v).ptReload = s.ptReload := rfl
@[simp] theorem State.setF_ptData (s : State) (v : Nibble) : (s.setF v).ptData = s.ptData := rfl
@[simp] theorem State.setF_ptEnabled (s : State) (v : Nibble) : (s.setF v).ptEnabled = s.ptEnabled := rfl
@[simp] theorem State.setF_ptStamp (s : State) (v : Nibble) : (s.setF v).ptStamp = s.ptStamp := rfl
@[simp] theorem State.setF_clkStamp (s : State) (v : Nibble) : (s.setF v).clkStamp = s.clkStamp := rfl
@[simp] theorem State.setF_ticks (s : State) (v : Nibble) : (s.setF v).ticks = s.ticks := rfl
@[simp] theorem State.setF_k0 (s : State) (v : Nibble) : (s.setF v).k0 = s.k0 := rfl
@[simp] theorem State.setF_k1 (s : State) (v : Nibble) : (s.setF v).k1 = s.k1 := rfl
@[simp] theorem State.setF_callDepth (s : State) (v : Nibble) : (s.setF v).callDepth = s.callDepth := rfl
@[simp] theorem State.setF_run (s : State) (v : Nibble) : (s.setF v).run = s.run := rfl
@[simp] theorem State.setF_breakpoints (s : State) (v : Nibble) : (s.setF v).breakpoints = s.breakpoints := rfl
@[simp] theorem State.setF_params (s : State) (v : Nibble) : (s.setF v).params = s.params := rfl
@[simp] theorem State.setF_outputs (s : State) (v : Nibble) : (s.setF v).outputs = s.outputs := rfl
@[simp] theorem State.setF_stop (s : State) (v : Nibble) : (s.setF v).stop = s.stop := rfl

@[simp] theorem State.setPc_a (s : State) (v : CodeAddr) : (s.setPc v).a = s.a := rfl
@[simp] theorem State.setPc_b (s : State) (v : CodeAddr) : (s.setPc v).b = s.b := rfl
@[simp] theorem State.setPc_x (s : State) (v : CodeAddr) : (s.setPc v).x = s.x := rfl
@[simp] theorem State.setPc_y (s : State) (v : CodeAddr) : (s.setPc v).y = s.y := rfl
@[simp] theorem State.setPc_sp (s : State) (v : CodeAddr) : (s.setPc v).sp = s.sp := rfl
@[simp] theorem State.setPc_f (s : State) (v : CodeAddr) : (s.setPc v).f = s.f := rfl
@[simp] theorem State.setPc_pc (s : State) (v : CodeAddr) : (s.setPc v).pc = v := rfl
@[simp] theorem State.setPc_np (s : State) (v : CodeAddr) : (s.setPc v).np = s.np := rfl
@[simp] theorem State.setPc_nextPc (s : State) (v : CodeAddr) : (s.setPc v).nextPc = s.nextPc := rfl
@[simp] theorem State.setPc_mem (s : State) (v : CodeAddr) : (s.setPc v).mem = s.mem := rfl
@[simp] theorem State.setPc_rom (s : State) (v : CodeAddr) : (s.setPc v).rom = s.rom := rfl
@[simp] theorem State.setPc_slots (s : State) (v : CodeAddr) : (s.setPc v).slots = s.slots := rfl
@[simp] theorem State.setPc_ptReload (s : State) (v : CodeAddr) : (s.setPc v).ptReload = s.ptReload := rfl
@[simp] theorem State.setPc_ptData (s : State) (v : CodeAddr) : (s.setPc v).ptData = s.ptData := rfl
@[simp] theorem State.setPc_ptEnabled (s : State) (v : CodeAddr) : (s.setPc v).ptEnabled = s.ptEnabled := rfl
@[simp] theorem State.setPc_ptStamp (s : State) (v : CodeAddr) : (s.setPc v).ptStamp = s.ptStamp := rfl
@[simp] theorem State.setPc_clkStamp (s : State) (v : CodeAddr) : (s.setPc v).clkStamp = s.clkStamp := rfl
@[simp] theorem State.setPc_ticks (s : State) (v : CodeAddr) : (s.setPc v).ticks = s.ticks := rfl
@[simp] theorem State.setPc_k0 (s : State) (v : CodeAddr) : (s.setPc v).k0 = s.k0 := rfl
@[simp] theorem State.setPc_k1 (s : State) (v : CodeAddr) : (s.setPc v).k1 = s.k1 := rfl
@[simp] theorem State.setPc_callDepth (s : State) (v : CodeAddr) : (s.setPc v).callDepth = s.callDepth := rfl
@[simp] theorem State.setPc_run (s : State) (v : CodeAddr) : (s.setPc v).run = s.run := rfl
@[simp] theorem State.setPc_breakpoints (s : State) (v : CodeAddr) : (s.setPc v).breakpoints = s.breakpoints := rfl
@[simp] theorem State.setPc_params (s : State) (v : CodeAddr) : (s.setPc v).params = s.params := rfl
@[simp] theorem State.setPc_outputs (s : State) (v : CodeAddr) : (s.setPc v).outputs = s.outputs := rfl
@[simp] theorem State.setPc_stop (s : State) (v : CodeAddr) : (s.setPc v).stop = s.stop := rfl

@[simp] theorem State.setNp_a (s : State) (v : BankPage) : (s.setNp v).a = s.a := rfl
@[simp] theorem State.setNp_b (s : State) (v : BankPage) : (s.setNp v).b = s.b := rfl
@[simp] theorem State.setNp_x (s : State) (v : BankPage) : (s.setNp v).x = s.x := rfl
@[simp] theorem State.setNp_y (s : State) (v : BankPage) : (s.setNp v).y = s.y := rfl
@[simp] theorem State.setNp_sp (s : State) (v : BankPage) : (s.setNp v).sp = s.sp := rfl
@[simp] theorem State.setNp_f (s : State) (v : BankPage) : (s.setNp v).f = s.f := rfl
@[simp] theorem State.setNp_pc (s : State) (v : BankPage) : (s.setNp v).pc = s.pc := rfl
@[simp] theorem State.setNp_np (s : State) (v : BankPage) : (s.setNp v).np = v := rfl
@[simp] theorem State.setNp_nextPc (s : State) (v : BankPage) : (s.setNp v).nextPc = s.nextPc := rfl
@[simp] theorem State.setNp_mem (s : State) (v : BankPage) : (s.setNp v).mem = s.mem := rfl
@[simp] theorem State.setNp_rom (s : State) (v : BankPage) : (s.setNp v).rom = s.rom := rfl
@[simp] theorem State.setNp_slots (s : State) (v : BankPage) : (s.setNp v).slots = s.slots := rfl
@[simp] theorem State.setNp_ptReload (s : State) (v : BankPage) : (s.setNp v).ptReload = s.ptReload := rfl
@[simp] theorem State.setNp_ptData (s : State) (v : BankPage) : (s.setNp v).ptData = s.ptData := rfl
@[simp] theorem State.setNp_ptEnabled (s : State) (v : BankPage) : (s.setNp v).ptEnabled = s.ptEnabled := rfl
@[simp] theorem State.setNp_ptStamp (s : State) (v : BankPage) : (s.setNp v).ptStamp = s.ptStamp := rfl
@[simp] theorem State.setNp_clkStamp (s : State) (v : BankPage) : (s.setNp v).clkStamp = s.clkStamp := rfl
@[simp] theorem State.setNp_ticks (s : State) (v : BankPage) : (s.setNp v).ticks = s.ticks := rfl
@[simp] theorem State.setNp_k0 (s : State) (v : BankPage) : (s.setNp v).k0 = s.k0 := rfl
@[simp] theorem State.setNp_k1 (s : State) (v : BankPage) : (s.setNp v).k1 = s.k1 := rfl
@[simp] theorem State.setNp_callDepth (s : State) (v : BankPage) : (s.setNp v).callDepth = s.callDepth := rfl
@[simp] theorem State.setNp_run (s : State) (v : BankPage) : (s.setNp v).run = s.run := rfl
@[simp] theorem State.setNp_breakpoints (s : State) (v : BankPage) : (s.setNp v).breakpoints = s.breakpoints := rfl
@[simp] theorem State.setNp_params (s : State) (v : BankPage) : (s.setNp v).params = s.params := rfl
@[simp] theorem State.setNp_outputs (s : State) (v : BankPage) : (s.setNp v).outputs = s.outputs := rfl
@[simp] theorem State.setNp_stop (s : State) (v : BankPage) : (s.setNp v).stop = s.stop := rfl

@[simp] theorem State.setNextPc_a (s : State) (v : CodeAddr) : (s.setNextPc v).a = s.a := rfl
@[simp] theorem State.setNextPc_b (s : State) (v : CodeAddr) : (s.setNextPc v).b = s.b := rfl
@[simp] theorem State.setNextPc_x (s : State) (v : CodeAddr) : (s.setNextPc v).x = s.x := rfl
@[simp] theorem State.setNextPc_y (s : State) (v : CodeAddr) : (s.setNextPc v).y = s.y := rfl
@[simp] theorem State.setNextPc_sp (s : State) (v : CodeAddr) : (s.setNextPc v).sp = s.sp := rfl
@[simp] theorem State.setNextPc_f (s : State) (v : CodeAddr) : (s.setNextPc v).f = s.f := rfl
@[simp] theorem State.setNextPc_pc (s : State) (v : CodeAddr) : (s.setNextPc v).pc = s.pc := rfl
@[simp] theorem State.setNextPc_np (s : State) (v : CodeAddr) : (s.setNextPc v).np = s.np := rfl
@[simp] theorem State.setNextPc_nextPc (s : State) (v : CodeAddr) : (s.setNextPc v).nextPc = v := rfl
@[simp] theorem State.setNextPc_mem (s : State) (v : CodeAddr) : (s.setNextPc v).mem = s.mem := rfl
@[simp] theorem State.setNextPc_rom (s : State) (v : CodeAddr) : (s.setNextPc v).rom = s.rom := rfl
@[simp] theorem State.setNextPc_slots (s : State) (v : CodeAddr) : (s.setNextPc v).slots = s.slots := rfl
@[simp] theorem State.setNextPc_ptReload (s : State) (v : CodeAddr) : (s.setNextPc v).ptReload = s.ptReload := rfl
@[simp] theorem State.setNextPc_ptData (s : State) (v : CodeAddr) : (s.setNextPc v).ptData = s.ptData := rfl
@[simp] theorem State.setNextPc_ptEnabled (s : State) (v : CodeAddr) : (s.setNextPc v).ptEnabled = s.ptEnabled := rfl
@[simp] theorem State.setNextPc_ptStamp (s : State) (v : CodeAddr) : (s.setNextPc v).ptStamp = s.ptStamp := rfl
@[simp] theorem State.setNextPc_clkStamp (s : State) (v : CodeAddr) : (s.setNextPc v).clkStamp = s.clkStamp := rfl
@[simp] theorem State.setNextPc_ticks (s : State) (v : CodeAddr) : (s.setNextPc v).ticks = s.ticks := rfl
@[simp] theorem State.setNextPc_k0 (s : State) (v : CodeAddr) : (s.setNextPc v).k0 = s.k0 := rfl
@[simp] theorem State.setNextPc_k1 (s : State) (v : CodeAddr) : (s.setNextPc v).k1 = s.k1 := rfl
@[simp] theorem State.setNextPc_callDepth (s : State) (v : CodeAddr) : (s.setNextPc v).callDepth = s.callDepth := rfl
@[simp] theorem State.setNextPc_run (s : State) (v : CodeAddr) : (s.setNextPc v).run = s.run := rfl
@[simp] theorem State.setNextPc_breakpoints (s : State) (v : CodeAddr) : (s.setNextPc v).breakpoints = s.breakpoints := rfl
@[simp] theorem State.setNextPc_params (s : State) (v : CodeAddr) : (s.setNextPc v).params = s.params := rfl
@[simp] theorem State.setNextPc_outputs (s : State) (v : CodeAddr) : (s.setNextPc v).outputs = s.outputs := rfl
@[simp] theorem State.setNextPc_stop (s : State) (v : CodeAddr) : (s.setNextPc v).stop = s.stop := rfl

@[simp] theorem State.setMem_a (s : State) (v : List (Nat × Nibble)) : (s.setMem v).a = s.a := rfl
@[simp] theorem State.setMem_b (s : State) (v : List (Nat × Nibble)) : (s.setMem v).b = s.b := rfl
@[simp] theorem State.setMem_x (s : State) (v : List (Nat × Nibble)) : (s.setMem v).x = s.x := rfl
@[simp] theorem State.setMem_y (s : State) (v : List (Nat × Nibble)) : (s.setMem v).y = s.y := rfl
@[simp] theorem State.setMem_sp (s : State) (v : List (Nat × Nibble)) : (s.setMem v).sp = s.sp := rfl
@[simp] theorem State.setMem_f (s : State) (v : List (Nat × Nibble)) : (s.setMem v).f = s.f := rfl
@[simp] theorem State.setMem_pc (s : State) (v : List (Nat × Nibble)) : (s.setMem v).pc = s.pc := rfl
@[simp] theorem State.setMem_np (s : State) (v : List (Nat × Nibble)) : (s.setMem v).np = s.np := rfl
@[simp] theorem State.setMem_nextPc (s : State) (v : List (Nat × Nibble)) : (s.setMem v).nextPc = s.nextPc := rfl
@[simp] theorem State.setMem_mem (s : State) (v : List (Nat × Nibble)) : (s.setMem v).mem = v := rfl
@[simp] theorem State.setMem_rom (s : State) (v : List (Nat × Nibble)) : (s.setMem v).rom = s.rom := rfl
@[simp] theorem State.setMem_slots (s : State) (v : List (Nat × Nibble)) : (s.setMem v).slots = s.slots := rfl
@[simp] theorem State.setMem_ptReload (s : State) (v : List (Nat × Nibble)) : (s.setMem v).ptReload = s.ptReload := rfl
@[simp] theorem State.setMem_ptData (s : State) (v : List (Nat × Nibble)) : (s.setMem v).ptData = s.ptData := rfl
@[simp] theorem State.setMem_ptEnabled (s : State) (v : List (Nat × Nibble)) : (s.setMem v).ptEnabled = s.ptEnabled := rfl
@[simp] theorem State.setMem_ptStamp (s : State) (v : List (Nat × Nibble)) : (s.setMem v).ptStamp = s.ptStamp := rfl
@[simp] theorem State.setMem_clkStamp (s : State) (v : List (Nat × Nibble)) : (s.setMem v).clkStamp = s.clkStamp := rfl
@[simp] theorem State.setMem_ticks (s : State) (v : List (Nat × Nibble)) : (s.setMem v).ticks = s.ticks := rfl
@[simp] theorem State.setMem_k0 (s : State) (v : List (Nat × Nibble)) : (s.setMem v).k0 = s.k0 := rfl
@[simp] theorem State.setMem_k1 (s : State) (v : List (Nat × Nibble)) : (s.setMem v).k1 = s.k1 := rfl
@[simp] theorem State.setMem_callDepth (s : State) (v : List (Nat × Nibble)) : (s.setMem v).callDepth = s.callDepth := rfl
@[simp] theorem State.setMem_run (s : State) (v : List (Nat × Nibble)) : (s.setMem v).run = s.run := rfl
@[simp] theorem State.setMem_breakpoints (s : State) (v : List (Nat × Nibble)) : (s.setMem v).breakpoints = s.breakpoints := rfl
@[simp] theorem State.setMem_params (s : State) (v : List (Nat × Nibble)) : (s.setMem v).params = s.params := rfl
@[simp] theorem State.setMem_outputs (s : State) (v : List (Nat × Nibble)) : (s.setMem v).outputs = s.outputs := rfl
@[simp] theorem State.setMem_stop (s : State) (v : List (Nat × Nibble)) : (s.setMem v).stop = s.stop := rfl

@[simp] theorem State.setRom_a (s : State) (v : List (Nat × InstrWord)) : (s.setRom v).a = s.a := rfl
@[simp] theorem State.setRom_b (s : State) (v : List (Nat × InstrWord)) : (s.setRom v).b = s.b := rfl
@[simp] theorem State.setRom_x (s : State) (v : List (Nat × InstrWord)) : (s.setRom v).x = s.x := rfl
@[simp] theorem State.setRom_y (s : State) (v : List (Nat × InstrWord)) : (s.setRom v).y = s.y := rfl
@[simp] theorem State.setRom_sp (s : State) (v : List (Nat × InstrWord)) : (s.setRom v).sp = s.sp := rfl
@[simp] theorem State.setRom_f (s : State) (v : List (Nat × InstrWord)) : (s.setRom v).f = s.f := rfl
@[simp] theorem State.setRom_pc (s : State) (v : List (Nat × InstrWord)) : (s.setRom v).pc = s.pc := rfl
@[simp] theorem State.setRom_np (s : State) (v : List (Nat × InstrWord)) : (s.setRom v).np = s.np := rfl
@[simp] theorem State.setRom_nextPc (s : State) (v : List (Nat × InstrWord)) : (s.setRom v).nextPc = s.nextPc := rfl
@[simp] theorem State.setRom_mem (s : State) (v : List (Nat × InstrWord)) : (s.setRom v).mem = s.mem := rfl
@[simp] theorem State.setRom_rom (s : State) (v : List (Nat × InstrWord)) : (s.setRom v).rom = v := rfl
@[simp] theorem State.setRom_slots (s : State) (v : List (Nat × InstrWord)) : (s.setRom v).slots = s.slots := rfl
@[simp] theorem State.setRom_ptReload (s : State) (v : List (Nat × InstrWord)) : (s.setRom v).ptReload = s.ptReload := rfl
@[simp] theorem State.setRom_ptData (s : State) (v : List (Nat × InstrWord)) : (s.setRom v).ptData = s.ptData := rfl
@[simp] theorem State.setRom_ptEnabled (s : State) (v : List (Nat × InstrWord)) : (s.setRom v).ptEnabled = s.ptEnabled := rfl
@[simp] theorem State.setRom_ptStamp (s : State) (v : List (Nat × InstrWord)) : (s.setRom v).ptStamp = s.ptStamp := rfl
@[simp] theorem State.setRom_clkStamp (s : State) (v : List (Nat × InstrWord)) : (s.setRom v).clkStamp = s.clkStamp := rfl
@[simp] theorem State.setRom_ticks (s : State) (v : List (Nat × InstrWord)) : (s.setRom v).ticks = s.ticks := rfl
@[simp] theorem State.setRom_k0 (s : State) (v : List (Nat × InstrWord)) : (s.setRom v).k0 = s.k0 := rfl
@[simp] theorem State.setRom_k1 (s : State) (v : List (Nat × InstrWord)) : (s.setRom v).k1 = s.k1 := rfl
@[simp] theorem State.setRom_callDepth (s : State) (v : List (Nat × InstrWord)) : (s.setRom v).callDepth = s.callDepth := rfl
@[simp] theorem State.setRom_run (s : State) (v : List (Nat × InstrWord)) : (s.setRom v).run = s.run := rfl
@[simp] theorem State.setRom_breakpoints (s : State) (v : List (Nat × InstrWord)) : (s.setRom v).breakpoints = s.breakpoints := rfl
@[simp] theorem State.setRom_params (s : State) (v : List (Nat × InstrWord)) : (s.setRom v).params = s.params := rfl
@[simp] theorem State.setRom_outputs (s : State) (v : List (Nat × InstrWord)) : (s.setRom v).outputs = s.outputs := rfl
@[simp] theorem State.setRom_stop (s : State) (v : List (Nat × InstrWord)) : (s.setRom v).stop = s.stop := rfl

@[simp] theorem State.setSlots_a (s : State) (v : Slots) : (s.setSlots v).a = s.a := rfl
@[simp] theorem State.setSlots_b (s : State) (v : Slots) : (s.setSlots v).b = s.b := rfl
@[simp] theorem State.setSlots_x (s : State) (v : Slots) : (s.setSlots v).x = s.x := rfl
@[simp] theorem State.setSlots_y (s : State) (v : Slots) : (s.setSlots v).y = s.y := rfl
@[simp] theorem State.setSlots_sp (s : State) (v : Slots) : (s.setSlots v).sp = s.sp := rfl
@[simp] theorem State.setSlots_f (s : State) (v : Slots) : (s.setSlots v).f = s.f := rfl
@[simp] theorem State.setSlots_pc (s : State) (v : Slots) : (s.setSlots v).pc = s.pc := rfl
@[simp] theorem State.setSlots_np (s : State) (v : Slots) : (s.setSlots v).np = s.np := rfl
@[simp] theorem State.setSlots_nextPc (s : State) (v : Slots) : (s.setSlots v).nextPc = s.nextPc := rfl
@[simp] theorem State.setSlots_mem (s : State) (v : Slots) : (s.setSlots v).mem = s.mem := rfl
@[simp] theorem State.setSlots_rom (s : State) (v : Slots) : (s.setSlots v).rom = s.rom := rfl
@[simp] theorem State.setSlots_slots (s : State) (v : Slots) : (s.setSlots v).slots = v := rfl
@[simp] theorem State.setSlots_ptReload (s : State) (v : Slots) : (s.setSlots v).ptReload = s.ptReload := rfl
@[simp] theorem State.setSlots_ptData (s : State) (v : Slots) : (s.setSlots v).ptData = s.ptData := rfl
@[simp] theorem State.setSlots_ptEnabled (s : State) (v : Slots) : (s.setSlots v).ptEnabled = s.ptEnabled := rfl
@[simp] theorem State.setSlots_ptStamp (s : State) (v : Slots) : (s.setSlots v).ptStamp = s.ptStamp := rfl
@[simp] theorem State.setSlots_clkStamp (s : State) (v : Slots) : (s.setSlots v).clkStamp = s.clkStamp := rfl
@[simp] theorem State.setSlots_ticks (s : State) (v : Slots) : (s.setSlots v).ticks = s.ticks := rfl
@[simp] theorem State.setSlots_k0 (s : State) (v : Slots) : (s.setSlots v).k0 = s.k0 := rfl
@[simp] theorem State.setSlots_k1 (s : State) (v : Slots) : (s.setSlots v).k1 = s.k1 := rfl
@[simp] theorem State.setSlots_callDepth (s : State) (v : Slots) : (s.setSlots v).callDepth = s.callDepth := rfl
@[simp] theorem State.setSlots_run (s : State) (v : Slots) : (s.setSlots v).run = s.run := rfl
@[simp] theorem State.setSlots_breakpoints (s : State) (v : Slots) : (s.setSlots v).breakpoints = s.breakpoints := rfl
@[simp] theorem State.setSlots_params (s : State) (v : Slots) : (s.setSlots v).params = s.params := rfl
@[simp] theorem State.setSlots_outputs (s : State) (v : Slots) : (s.setSlots v).outputs = s.outputs := rfl
@[simp] theorem State.setSlots_stop (s : State) (v : Slots) : (s.setSlots v).stop = s.stop := rfl

@[simp] theorem State.setPtReload_a (s : State) (v : Octet) : (s.setPtReload v).a = s.a := rfl
@[simp] theorem State.setPtReload_b (s : State) (v : Octet) : (s.setPtReload v).b = s.b := rfl
@[simp] theorem State.setPtReload_x (s : State) (v : Octet) : (s.setPtReload v).x = s.x := rfl
@[simp] theorem State.setPtReload_y (s : State) (v : Octet) : (s.setPtReload v).y = s.y := rfl
@[simp] theorem State.setPtReload_sp (s : State) (v : Octet) : (s.setPtReload v).sp = s.sp := rfl
@[simp] theorem State.setPtReload_f (s : State) (v : Octet) : (s.setPtReload v).f = s.f := rfl
@[simp] theorem State.setPtReload_pc (s : State) (v : Octet) : (s.setPtReload v).pc = s.pc := rfl
@[simp] theorem State.setPtReload_np (s : State) (v : Octet) : (s.setPtReload v).np = s.np := rfl
@[simp] theorem State.setPtReload_nextPc (s : State) (v : Octet) : (s.setPtReload v).nextPc = s.nextPc := rfl
@[simp] theorem State.setPtReload_mem (s : State) (v : Octet) : (s.setPtReload v).mem = s.mem := rfl
@[simp] theorem State.setPtReload_rom (s : State) (v : Octet) : (s.setPtReload v).rom = s.rom := rfl
@[simp] theorem State.setPtReload_slots (s : State) (v : Octet) : (s.setPtReload v).slots = s.slots := rfl
@[simp] theorem State.setPtReload_ptReload (s : State) (v : Octet) : (s.setPtReload v).ptReload = v := rfl
@[simp] theorem State.setPtReload_ptData (s : State) (v : Octet) : (s.setPtReload v).ptData = s.ptData := rfl
@[simp] theorem State.setPtReload_ptEnabled (s : State) (v : Octet) : (s.setPtReload v).ptEnabled = s.ptEnabled := rfl
@[simp] theorem State.setPtReload_ptStamp (s : State) (v : Octet) : (s.setPtReload v).ptStamp = s.ptStamp := rfl
@[simp] theorem State.setPtReload_clkStamp (s : State) (v : Octet) : (s.setPtReload v).clkStamp = s.clkStamp := rfl
@[simp] theorem State.setPtReload_ticks (s : State) (v : Octet) : (s.setPtReload v).ticks = s.ticks := rfl
@[simp] theorem State.setPtReload_k0 (s : State) (v : Octet) : (s.setPtReload v).k0 = s.k0 := rfl
@[simp] theorem State.setPtReload_k1 (s : State) (v : Octet) : (s.setPtReload v).k1 = s.k1 := rfl
@[simp] theorem State.setPtReload_callDepth (s : State) (v : Octet) : (s.setPtReload v).callDepth = s.callDepth := rfl
@[simp] theorem State.setPtReload_run (s : State) (v : Octet) : (s.setPtReload v).run = s.run := rfl
@[simp] theorem State.setPtReload_breakpoints (s : State) (v : Octet) : (s.setPtReload v).breakpoints = s.breakpoints := rfl
@[simp] theorem State.setPtReload_params (s : State) (v : Octet) : (s.setPtReload v).params = s.params := rfl
@[simp] theorem State.setPtReload_outputs (s : State) (v : Octet) : (s.setPtReload v).outputs = s.outputs := rfl
@[simp] theorem State.setPtReload_stop (s : State) (v : Octet) : (s.setPtReload v).stop = s.stop := rfl

@[simp] theorem State.setPtData_a (s : State) (v : Octet) : (s.setPtData v).a = s.a := rfl
@[simp] theorem State.setPtData_b (s : State) (v : Octet) : (s.setPtData v).b = s.b := rfl
@[simp] theorem State.setPtData_x (s : State) (v : Octet) : (s.setPtData v).x = s.x := rfl
@[simp] theorem State.setPtData_y (s : State) (v : Octet) : (s.setPtData v).y = s.y := rfl
@[simp] theorem State.setPtData_sp (s : State) (v : Octet) : (s.setPtData v).sp = s.sp := rfl
@[simp] theorem State.setPtData_f (s : State) (v : Octet) : (s.setPtData v).f = s.f := rfl
@[simp] theorem State.setPtData_pc (s : State) (v : Octet) : (s.setPtData v).pc = s.pc := rfl
@[simp] theorem State.setPtData_np (s : State) (v : Octet) : (s.setPtData v).np = s.np := rfl
@[simp] theorem State.setPtData_nextPc (s : State) (v : Octet) : (s.setPtData v).nextPc = s.nextPc := rfl
@[simp] theorem State.setPtData_mem (s : State) (v : Octet) : (s.setPtData v).mem = s.mem := rfl
@[simp] theorem State.setPtData_rom (s : State) (v : Octet) : (s.setPtData v).rom = s.rom := rfl
@[simp] theorem State.setPtData_slots (s : State) (v : Octet) : (s.setPtData v).slots = s.slots := rfl
@[simp] theorem State.setPtData_ptReload (s : State) (v : Octet) : (s.setPtData v).ptReload = s.ptReload := rfl
@[simp] theorem State.setPtData_ptData (s : State) (v : Octet) : (s.setPtData v).ptData = v := rfl
@[simp] theorem State.setPtData_ptEnabled (s : State) (v : Octet) : (s.setPtData v).ptEnabled = s.ptEnabled := rfl
@[simp] theorem State.setPtData_ptStamp (s : State) (v : Octet) : (s.setPtData v).ptStamp = s.ptStamp := rfl
@[simp] theorem State.setPtData_clkStamp (s : State) (v : Octet) : (s.setPtData v).clkStamp = s.clkStamp := rfl
@[simp] theorem State.setPtData_ticks (s : State) (v : Octet) : (s.setPtData v).ticks = s.ticks := rfl
@[simp] theorem State.setPtData_k0 (s : State) (v : Octet) : (s.setPtData v).k0 = s.k0 := rfl
@[simp] theorem State.setPtData_k1 (s : State) (v : Octet) : (s.setPtData v).k1 = s.k1 := rfl
@[simp] theorem State.setPtData_callDepth (s : State) (v : Octet) : (s.setPtData v).callDepth = s.callDepth := rfl
@[simp] theorem State.setPtData_run (s : State) (v : Octet) : (s.setPtData v).run = s.run := rfl
@[simp] theorem State.setPtData_breakpoints (s : State) (v : Octet) : (s.setPtData v).breakpoints = s.breakpoints := rfl
@[simp] theorem State.setPtData_params (s : State) (v : Octet) : (s.setPtData v).params = s.params := rfl
@[simp] theorem State.setPtData_outputs (s : State) (v : Octet) : (s.setPtData v).outputs = s.outputs := rfl
@[simp] theorem State.setPtData_stop (s : State) (v : Octet) : (s.setPtData v).stop = s.stop := rfl

@[simp] theorem State.setPtEnabled_a (s : State) (v : Bool) : (s.setPtEnabled v).a = s.a := rfl
@[simp] theorem State.setPtEnabled_b (s : State) (v : Bool) : (s.setPtEnabled v).b = s.b := rfl
@[simp] theorem State.setPtEnabled_x (s : State) (v : Bool) : (s.setPtEnabled v).x = s.x := rfl
@[simp] theorem State.setPtEnabled_y (s : State) (v : Bool) : (s.setPtEnabled v).y = s.y := rfl
@[simp] theorem State.setPtEnabled_sp (s : State) (v : Bool) : (s.setPtEnabled v).sp = s.sp := rfl
@[simp] theorem State.setPtEnabled_f (s : State) (v : Bool) : (s.setPtEnabled v).f = s.f := rfl
@[simp] theorem State.setPtEnabled_pc (s : State) (v : Bool) : (s.setPtEnabled v).pc = s.pc := rfl
@[simp] theorem State.setPtEnabled_np (s : State) (v : Bool) : (s.setPtEnabled v).np = s.np := rfl
@[simp] theorem State.setPtEnabled_nextPc (s : State) (v : Bool) : (s.setPtEnabled v).nextPc = s.nextPc := rfl
@[simp] theorem State.setPtEnabled_mem (s : State) (v : Bool) : (s.setPtEnabled v).mem = s.mem := rfl
@[simp] theorem State.setPtEnabled_rom (s : State) (v : Bool) : (s.setPtEnabled v).rom = s.rom := rfl
@[simp] theorem State.setPtEnabled_slots (s : State) (v : Bool) : (s.setPtEnabled v).slots = s.slots := rfl
@[simp] theorem State.setPtEnabled_ptReload (s : State) (v : Bool) : (s.setPtEnabled v).ptReload = s.ptReload := rfl
@[simp] theorem State.setPtEnabled_ptData (s : State) (v : Bool) : (s.setPtEnabled v).ptData = s.ptData := rfl
@[simp] theorem State.setPtEnabled_ptEnabled (s : State) (v : Bool) : (s.setPtEnabled v).ptEnabled = v := rfl
@[simp] theorem State.setPtEnabled_ptStamp (s : State) (v : Bool) : (s.setPtEnabled v).ptStamp = s.ptStamp := rfl
@[simp] theorem State.setPtEnabled_clkStamp (s : State) (v : Bool) : (s.setPtEnabled v).clkStamp = s.clkStamp := rfl
@[simp] theorem State.setPtEnabled_ticks (s : State) (v : Bool) : (s.setPtEnabled v).ticks = s.ticks := rfl
@[simp] theorem State.setPtEnabled_k0 (s : State) (v : Bool) : (s.setPtEnabled v).k0 = s.k0 := rfl
@[simp] theorem State.setPtEnabled_k1 (s : State) (v : Bool) : (s.setPtEnabled v).k1 = s.k1 := rfl
@[simp] theorem State.setPtEnabled_callDepth (s : State) (v : Bool) : (s.setPtEnabled v).callDepth = s.callDepth := rfl
@[simp] theorem State.setPtEnabled_run (s : State) (v : Bool) : (s.setPtEnabled v).run = s.run := rfl
@[simp] theorem State.setPtEnabled_breakpoints (s : State) (v : Bool) : (s.setPtEnabled v).breakpoints = s.breakpoints := rfl
@[simp] theorem State.setPtEnabled_params (s : State) (v : Bool) : (s.setPtEnabled v).params = s.params := rfl
@[simp] theorem State.setPtEnabled_outputs (s : State) (v : Bool) : (s.setPtEnabled v).outputs = s.outputs := rfl
@[simp] theorem State.setPtEnabled_stop (s : State) (v : Bool) : (s.setPtEnabled v).stop = s.stop := rfl

@[simp] theorem State.setPtStamp_a (s : State) (v : Nat) : (s.setPtStamp v).a = s.a := rfl
@[simp] theorem State.setPtStamp_b (s : State) (v : Nat) : (s.setPtStamp v).b = s.b := rfl
@[simp] theorem State.setPtStamp_x (s : State) (v : Nat) : (s.setPtStamp v).x = s.x := rfl
@[simp] theorem State.setPtStamp_y (s : State) (v : Nat) : (s.setPtStamp v).y = s.y := rfl
@[simp] theorem State.setPtStamp_sp (s : State) (v : Nat) : (s.setPtStamp v).sp = s.sp := rfl
@[simp] theorem State.setPtStamp_f (s : State) (v : Nat) : (s.setPtStamp v).f = s.f := rfl
@[simp] theorem State.setPtStamp_pc (s : State) (v : Nat) : (s.setPtStamp v).pc = s.pc := rfl
@[simp] theorem State.setPtStamp_np (s : State) (v : Nat) : (s.setPtStamp v).np = s.np := rfl
@[simp] theorem State.setPtStamp_nextPc (s : State) (v : Nat) : (s.setPtStamp v).nextPc = s.nextPc := rfl
@[simp] theorem State.setPtStamp_mem (s : State) (v : Nat) : (s.setPtStamp v).mem = s.mem := rfl
@[simp] theorem State.setPtStamp_rom (s : State) (v : Nat) : (s.setPtStamp v).rom = s.rom := rfl
@[simp] theorem State.setPtStamp_slots (s : State) (v : Nat) : (s.setPtStamp v).slots = s.slots := rfl
@[simp] theorem State.setPtStamp_ptReload (s : State) (v : Nat) : (s.setPtStamp v).ptReload = s.ptReload := rfl
@[simp] theorem State.setPtStamp_ptData (s : State) (v : Nat) : (s.setPtStamp v).ptData = s.ptData := rfl
@[simp] theorem State.setPtStamp_ptEnabled (s : State) (v : Nat) : (s.setPtStamp v).ptEnabled = s.ptEnabled := rfl
@[simp] theorem State.setPtStamp_ptStamp (s : State) (v : Nat) : (s.setPtStamp v).ptStamp = v := rfl
@[simp] theorem State.setPtStamp_clkStamp (s : State) (v : Nat) : (s.setPtStamp v).clkStamp = s.clkStamp := rfl
@[simp] theorem State.setPtStamp_ticks (s : State) (v : Nat) : (s.setPtStamp v).ticks = s.ticks := rfl
@[simp] theorem State.setPtStamp_k0 (s : State) (v : Nat) : (s.setPtStamp v).k0 = s.k0 := rfl
@[simp] theorem State.setPtStamp_k1 (s : State) (v : Nat) : (s.setPtStamp v).k1 = s.k1 := rfl
@[simp] theorem State.setPtStamp_callDepth (s : State) (v : Nat) : (s.setPtStamp v).callDepth = s.callDepth := rfl
@[simp] theorem State.setPtStamp_run (s : State) (v : Nat) : (s.setPtStamp v).run = s.run := rfl
@[simp] theorem State.setPtStamp_breakpoints (s : State) (v : Nat) : (s.setPtStamp v).breakpoints = s.breakpoints := rfl
@[simp] theorem State.setPtStamp_params (s : State) (v : Nat) : (s.setPtStamp v).params = s.params := rfl
@[simp] theorem State.setPtStamp_outputs (s : State) (v : Nat) : (s.setPtStamp v).outputs = s.outputs := rfl
@[simp] theorem State.setPtStamp_stop (s : State) (v : Nat) : (s.setPtStamp v).stop = s.stop := rfl

@[simp] theorem State.setClkStamp_a (s : State) (v : Nat) : (s.setClkStamp v).a = s.a := rfl
@[simp] theorem State.setClkStamp_b (s : State) (v : Nat) : (s.setClkStamp v).b = s.b := rfl
@[simp] theorem State.setClkStamp_x (s : State) (v : Nat) : (s.setClkStamp v).x = s.x := rfl
@[simp] theorem State.setClkStamp_y (s : State) (v : Nat) : (s.setClkStamp v).y = s.y := rfl
@[simp] theorem State.setClkStamp_sp (s : State) (v : Nat) : (s.setClkStamp v).sp = s.sp := rfl
@[simp] theorem State.setClkStamp_f (s : State) (v : Nat) : (s.setClkStamp v).f = s.f := rfl
@[simp] theorem State.setClkStamp_pc (s : State) (v : Nat) : (s.setClkStamp v).pc = s.pc := rfl
@[simp] theorem State.setClkStamp_np (s : State) (v : Nat) : (s.setClkStamp v).np = s.np := rfl
@[simp] theorem State.setClkStamp_nextPc (s : State) (v : Nat) : (s.setClkStamp v).nextPc = s.nextPc := rfl
@[simp] theorem State.setClkStamp_mem (s : State) (v : Nat) : (s.setClkStamp v).mem = s.mem := rfl
@[simp] theorem State.setClkStamp_rom (s : State) (v : Nat) : (s.setClkStamp v).rom = s.rom := rfl
@[simp] theorem State.setClkStamp_slots (s : State) (v : Nat) : (s.setClkStamp v).slots = s.slots := rfl
@[simp] theorem State.setClkStamp_ptReload (s : State) (v : Nat) : (s.setClkStamp v).ptReload = s.ptReload := rfl
@[simp] theorem State.setClkStamp_ptData (s : State) (v : Nat) : (s.setClkStamp v).ptData = s.ptData := rfl
@[simp] theorem State.setClkStamp_ptEnabled (s : State) (v : Nat) : (s.setClkStamp v).ptEnabled = s.ptEnabled := rfl
@[simp] theorem State.setClkStamp_ptStamp (s : State) (v : Nat) : (s.setClkStamp v).ptStamp = s.ptStamp := rfl
@[simp] theorem State.setClkStamp_clkStamp (s : State) (v : Nat) : (s.setClkStamp v).clkStamp = v := rfl
@[simp] theorem State.setClkStamp_ticks (s : State) (v : Nat) : (s.setClkStamp v).ticks = s.ticks := rfl
@[simp] theorem State.setClkStamp_k0 (s : State) (v : Nat) : (s.setClkStamp v).k0 = s.k0 := rfl
@[simp] theorem State.setClkStamp_k1 (s : State) (v : Nat) : (s.setClkStamp v).k1 = s.k1 := rfl
@[simp] theorem State.setClkStamp_callDepth (s : State) (v : Nat) : (s.setClkStamp v).callDepth = s.callDepth := rfl
@[simp] theorem State.setClkStamp_run (s : State) (v : Nat) : (s.setClkStamp v).run = s.run := rfl
@[simp] theorem State.setClkStamp_breakpoints (s : State) (v : Nat) : (s.setClkStamp v).breakpoints = s.breakpoints := rfl
@[simp] theorem State.setClkStamp_params (s : State) (v : Nat) : (s.setClkStamp v).params = s.params := rfl
@[simp] theorem State.setClkStamp_outputs (s : State) (v : Nat) : (s.setClkStamp v).outputs = s.outputs := rfl
@[simp] theorem State.setClkStamp_stop (s : State) (v : Nat) : (s.setClkStamp v).stop = s.stop := rfl

@[simp] theorem State.setTicks_a (s : State) (v : Nat) : (s.setTicks v).a = s.a := rfl
@[simp] theorem State.setTicks_b (s : State) (v : Nat) : (s.setTicks v).b = s.b := rfl
@[simp] theorem State.setTicks_x (s : State) (v : Nat) : (s.setTicks v).x = s.x := rfl
@[simp] theorem State.setTicks_y (s : State) (v : Nat) : (s.setTicks v).y = s.y := rfl
@[simp] theorem State.setTicks_sp (s : State) (v : Nat) : (s.setTicks v).sp = s.sp := rfl
@[simp] theorem State.setTicks_f (s : State) (v : Nat) : (s.setTicks v).f = s.f := rfl
@[simp] theorem State.setTicks_pc (s : State) (v : Nat) : (s.setTicks v).pc = s.pc := rfl
@[simp] theorem State.setTicks_np (s : State) (v : Nat) : (s.setTicks v).np = s.np := rfl
@[simp] theorem State.setTicks_nextPc (s : State) (v : Nat) : (s.setTicks v).nextPc = s.nextPc := rfl
@[simp] theorem State.setTicks_mem (s : State) (v : Nat) : (s.setTicks v).mem = s.mem := rfl
@[simp] theorem State.setTicks_rom (s : State) (v : Nat) : (s.setTicks v).rom = s.rom := rfl
@[simp] theorem State.setTicks_slots (s : State) (v : Nat) : (s.setTicks v).slots = s.slots := rfl
@[simp] theorem State.setTicks_ptReload (s : State) (v : Nat) : (s.setTicks v).ptReload = s.ptReload := rfl
@[simp] theorem State.setTicks_ptData (s : State) (v : Nat) : (s.setTicks v).ptData = s.ptData := rfl
@[simp] theorem State.setTicks_ptEnabled (s : State) (v : Nat) : (s.setTicks v).ptEnabled = s.ptEnabled := rfl
@[simp] theorem State.setTicks_ptStamp (s : State) (v : Nat) : (s.setTicks v).ptStamp = s.ptStamp := rfl
@[simp] theorem State.setTicks_clkStamp (s : State) (v : Nat) : (s.setTicks v).clkStamp = s.clkStamp := rfl
@[simp] theorem State.setTicks_ticks (s : State) (v : Nat) : (s.setTicks v).ticks = v := rfl
@[simp] theorem State.setTicks_k0 (s : State) (v : Nat) : (s.setTicks v).k0 = s.k0 := rfl
@[simp] theorem State.setTicks_k1 (s : State) (v : Nat) : (s.setTicks v).k1 = s.k1 := rfl
@[simp] theorem State.setTicks_callDepth (s : State) (v : Nat) : (s.setTicks v).callDepth = s.callDepth := rfl
@[simp] theorem State.setTicks_run (s : State) (v : Nat) : (s.setTicks v).run = s.run := rfl
@[simp] theorem State.setTicks_breakpoints (s : State) (v : Nat) : (s.setTicks v).breakpoints = s.breakpoints := rfl
@[simp] theorem State.setTicks_params (s : State) (v : Nat) : (s.setTicks v).params = s.params := rfl
@[simp] theorem State.setTicks_outputs (s : State) (v : Nat) : (s.setTicks v).outputs = s.outputs := rfl
@[simp] theorem State.setTicks_stop (s : State) (v : Nat) : (s.setTicks v).stop = s.stop := rfl

@[simp] theorem State.setK0_a (s : State) (v : Nibble) : (s.setK0 v).a = s.a := rfl
@[simp] theorem State.setK0_b (s : State) (v : Nibble) : (s.setK0 v).b = s.b := rfl
@[simp] theorem State.setK0_x (s : State) (v : Nibble) : (s.setK0 v).x = s.x := rfl
@[simp] theorem State.setK0_y (s : State) (v : Nibble) : (s.setK0 v).y = s.y := rfl
@[simp] theorem State.setK0_sp (s : State) (v : Nibble) : (s.setK0 v).sp = s.sp := rfl
@[simp] theorem State.setK0_f (s : State) (v : Nibble) : (s.setK0 v).f = s.f := rfl
@[simp] theorem State.setK0_pc (s : State) (v : Nibble) : (s.setK0 v).pc = s.pc := rfl
@[simp] theorem State.setK0_np (s : State) (v : Nibble) : (s.setK0 v).np = s.np := rfl
@[simp] theorem State.setK0_nextPc (s : State) (v : Nibble) : (s.setK0 v).nextPc = s.nextPc := rfl
@[simp] theorem State.setK0_mem (s : State) (v : Nibble) : (s.setK0 v).mem = s.mem := rfl
@[simp] theorem State.setK0_rom (s : State) (v : Nibble) : (s.setK0 v).rom = s.rom := rfl
@[simp] theorem State.setK0_slots (s : State) (v : Nibble) : (s.setK0 v).slots = s.slots := rfl
@[simp] theorem State.setK0_ptReload (s : State) (v : Nibble) : (s.setK0 v).ptReload = s.ptReload := rfl
@[simp] theorem State.setK0_ptData (s : State) (v : Nibble) : (s.setK0 v).ptData = s.ptData := rfl
@[simp] theorem State.setK0_ptEnabled (s : State) (v : Nibble) : (s.setK0 v).ptEnabled = s.ptEnabled := rfl
@[simp] theorem State.setK0_ptStamp (s : State) (v : Nibble) : (s.setK0 v).ptStamp = s.ptStamp := rfl
@[simp] theorem State.setK0_clkStamp (s : State) (v : Nibble) : (s.setK0 v).clkStamp = s.clkStamp := rfl
@[simp] theorem State.setK0_ticks (s : State) (v : Nibble) : (s.setK0 v).ticks = s.ticks := rfl
@[simp] theorem State.setK0_k0 (s : State) (v : Nibble) : (s.setK0 v).k0 = v := rfl
@[simp] theorem State.setK0_k1 (s : State) (v : Nibble) : (s.setK0 v).k1 = s.k1 := rfl
@[simp] theorem State.setK0_callDepth (s : State) (v : Nibble) : (s.setK0 v).callDepth = s.callDepth := rfl
@[simp] theorem State.setK0_run (s : State) (v : Nibble) : (s.setK0 v).run = s.run := rfl
@[simp] theorem State.setK0_breakpoints (s : State) (v : Nibble) : (s.setK0 v).breakpoints = s.breakpoints := rfl
@[simp] theorem State.setK0_params (s : State) (v : Nibble) : (s.setK0 v).params = s.params := rfl
@[simp] theorem State.setK0_outputs (s : State) (v : Nibble) : (s.setK0 v).outputs = s.outputs := rfl
@[simp] theorem State.setK0_stop (s : State) (v : Nibble) : (s.setK0 v).stop = s.stop := rfl

@[simp] theorem State.setK1_a (s : State) (v : Nibble) : (s.setK1 v).a = s.a := rfl
@[simp] theorem State.setK1_b (s : State) (v : Nibble) : (s.setK1 v).b = s.b := rfl
@[simp] theorem State.setK1_x (s : State) (v : Nibble) : (s.setK1 v).x = s.x := rfl
@[simp] theorem State.setK1_y (s : State) (v : Nibble) : (s.setK1 v).y = s.y := rfl
@[simp] theorem State.setK1_sp (s : State) (v : Nibble) : (s.setK1 v).sp = s.sp := rfl
@[simp] theorem State.setK1_f (s : State) (v : Nibble) : (s.setK1 v).f = s.f := rfl
@[simp] theorem State.setK1_pc (s : State) (v : Nibble) : (s.setK1 v).pc = s.pc := rfl
@[simp] theorem State.setK1_np (s : State) (v : Nibble) : (s.setK1 v).np = s.np := rfl
@[simp] theorem State.setK1_nextPc (s : State) (v : Nibble) : (s.setK1 v).nextPc = s.nextPc := rfl
@[simp] theorem State.setK1_mem (s : State) (v : Nibble) : (s.setK1 v).mem = s.mem := rfl
@[simp] theorem State.setK1_rom (s : State) (v : Nibble) : (s.setK1 v).rom = s.rom := rfl
@[simp] theorem State.setK1_slots (s : State) (v : Nibble) : (s.setK1 v).slots = s.slots := rfl
@[simp] theorem State.setK1_ptReload (s : State) (v : Nibble) : (s.setK1 v).ptReload = s.ptReload := rfl
@[simp] theorem State.setK1_ptData (s : State) (v : Nibble) : (s.setK1 v).ptData = s.ptData := rfl
@[simp] theorem State.setK1_ptEnabled (s : State) (v : Nibble) : (s.setK1 v).ptEnabled = s.ptEnabled := rfl
@[simp] theorem State.setK1_ptStamp (s : State) (v : Nibble) : (s.setK1 v).ptStamp = s.ptStamp := rfl
@[simp] theorem State.setK1_clkStamp (s : State) (v : Nibble) : (s.setK1 v).clkStamp = s.clkStamp := rfl
@[simp] theorem State.setK1_ticks (s : State) (v : Nibble) : (s.setK1 v).ticks = s.ticks := rfl
@[simp] theorem State.setK1_k0 (s : State) (v : Nibble) : (s.setK1 v).k0 = s.k0 := rfl
@[simp] theorem State.setK1_k1 (s : State) (v : Nibble) : (s.setK1 v).k1 = v := rfl
@[simp] theorem State.setK1_callDepth (s : State) (v : Nibble) : (s.setK1 v).callDepth = s.callDepth := rfl
@[simp] theorem State.setK1_run (s : State) (v : Nibble) : (s.setK1 v).run = s.run := rfl
@[simp] theorem State.setK1_breakpoints (s : State) (v : Nibble) : (s.setK1 v).breakpoints = s.breakpoints := rfl
@[simp] theorem State.setK1_params (s : State) (v : Nibble) : (s.setK1 v).params = s.params := rfl
@[simp] theorem State.setK1_outputs (s : State) (v : Nibble) : (s.setK1 v).outputs = s.outputs := rfl
@[simp] theorem State.setK1_stop (s : State) (v : Nibble) : (s.setK1 v).stop = s.stop := rfl

@[simp] theorem State.setCallDepth_a (s : State) (v : Int) : (s.setCallDepth v).a = s.a := rfl
@[simp] theorem State.setCallDepth_b (s : State) (v : Int) : (s.setCallDepth v).b = s.b := rfl
@[simp] theorem State.setCallDepth_x (s : State) (v : Int) : (s.setCallDepth v).x = s.x := rfl
@[simp] theorem State.setCallDepth_y (s : State) (v : Int) : (s.setCallDepth v).y = s.y := rfl
@[simp] theorem State.setCallDepth_sp (s : State) (v : Int) : (s.setCallDepth v).sp = s.sp := rfl
@[simp] theorem State.setCallDepth_f (s : State) (v : Int) : (s.setCallDepth v).f = s.f := rfl
@[simp] theorem State.setCallDepth_pc (s : State) (v : Int) : (s.setCallDepth v).pc = s.pc := rfl
@[simp] theorem State.setCallDepth_np (s : State) (v : Int) : (s.setCallDepth v).np = s.np := rfl
@[simp] theorem State.setCallDepth_nextPc (s : State) (v : Int) : (s.setCallDepth v).nextPc = s.nextPc := rfl
@[simp] theorem State.setCallDepth_mem (s : State) (v : Int) : (s.setCallDepth v).mem = s.mem := rfl
@[simp] theorem State.setCallDepth_rom (s : State) (v : Int) : (s.setCallDepth v).rom = s.rom := rfl
@[simp] theorem State.setCallDepth_slots (s : State) (v : Int) : (s.setCallDepth v).slots = s.slots := rfl
@[simp] theorem State.setCallDepth_ptReload (s : State) (v : Int) : (s.setCallDepth v).ptReload = s.ptReload := rfl
@[simp] theorem State.setCallDepth_ptData (s : State) (v : Int) : (s.setCallDepth v).ptData = s.ptData := rfl
@[simp] theorem State.setCallDepth_ptEnabled (s : State) (v : Int) : (s.setCallDepth v).ptEnabled = s.ptEnabled := rfl
@[simp] theorem State.setCallDepth_ptStamp (s : State) (v : Int) : (s.setCallDepth v).ptStamp = s.ptStamp := rfl
@[simp] theorem State.setCallDepth_clkStamp (s : State) (v : Int) : (s.setCallDepth v).clkStamp = s.clkStamp := rfl
@[simp] theorem State.setCallDepth_ticks (s : State) (v : Int) : (s.setCallDepth v).ticks = s.ticks := rfl
@[simp] theorem State.setCallDepth_k0 (s : State) (v : Int) : (s.setCallDepth v).k0 = s.k0 := rfl
@[simp] theorem State.setCallDepth_k1 (s : State) (v : Int) : (s.setCallDepth v).k1 = s.k1 := rfl
@[simp] theorem State.setCallDepth_callDepth (s : State) (v : Int) : (s.setCallDepth v).callDepth = v := rfl
@[simp] theorem State.setCallDepth_run (s : State) (v : Int) : (s.setCallDepth v).run = s.run := rfl
@[simp] theorem State.setCallDepth_breakpoints (s : State) (v : Int) : (s.setCallDepth v).breakpoints = s.breakpoints := rfl
@[simp] theorem State.setCallDepth_params (s : State) (v : Int) : (s.setCallDepth v).params = s.params := rfl
@[simp] theorem State.setCallDepth_outputs (s : State) (v : Int) : (s.setCallDepth v).outputs = s.outputs := rfl
@[simp] theorem State.setCallDepth_stop (s : State) (v : Int) : (s.setCallDepth v).stop = s.stop := rfl

@[simp] theorem State.setRun_a (s : State) (v : RunState) : (s.setRun v).a = s.a := rfl
@[simp] theorem State.setRun_b (s : State) (v : RunState) : (s.setRun v).b = s.b := rfl
@[simp] theorem State.setRun_x (s : State) (v : RunState) : (s.setRun v).x = s.x := rfl
@[simp] theorem State.setRun_y (s : State) (v : RunState) : (s.setRun v).y = s.y := rfl
@[simp] theorem State.setRun_sp (s : State) (v : RunState) : (s.setRun v).sp = s.sp := rfl
@[simp] theorem State.setRun_f (s : State) (v : RunState) : (s.setRun v).f = s.f := rfl
@[simp] theorem State.setRun_pc (s : State) (v : RunState) : (s.setRun v).pc = s.pc := rfl
@[simp] theorem State.setRun_np (s : State) (v : RunState) : (s.setRun v).np = s.np := rfl
@[simp] theorem State.setRun_nextPc (s : State) (v : RunState) : (s.setRun v).nextPc = s.nextPc := rfl
@[simp] theorem State.setRun_mem (s : State) (v : RunState) : (s.setRun v).mem = s.mem := rfl
@[simp] theorem State.setRun_rom (s : State) (v : RunState) : (s.setRun v).rom = s.rom := rfl
@[simp] theorem State.setRun_slots (s : State) (v : RunState) : (s.setRun v).slots = s.slots := rfl
@[simp] theorem State.setRun_ptReload (s : State) (v : RunState) : (s.setRun v).ptReload = s.ptReload := rfl
@[simp] theorem State.setRun_ptData (s : State) (v : RunState) : (s.setRun v).ptData = s.ptData := rfl
@[simp] theorem State.setRun_ptEnabled (s : State) (v : RunState) : (s.setRun v).ptEnabled = s.ptEnabled := rfl
@[simp] theorem State.setRun_ptStamp (s : State) (v : RunState) : (s.setRun v).ptStamp = s.ptStamp := rfl
@[simp] theorem State.setRun_clkStamp (s : State) (v : RunState) : (s.setRun v).clkStamp = s.clkStamp := rfl
@[simp] theorem State.setRun_ticks (s : State) (v : RunState) : (s.setRun v).ticks = s.ticks := rfl
@[simp] theorem State.setRun_k0 (s : State) (v : RunState) : (s.setRun v).k0 = s.k0 := rfl
@[simp] theorem State.setRun_k1 (s : State) (v : RunState) : (s.setRun v).k1 = s.k1 := rfl
@[simp] theorem State.setRun_callDepth (s : State) (v : RunState) : (s.setRun v).callDepth = s.callDepth := rfl
@[simp] theorem State.setRun_run (s : State) (v : RunState) : (s.setRun v).run = v := rfl
@[simp] theorem State.setRun_breakpoints (s : State) (v : RunState) : (s.setRun v).breakpoints = s.breakpoints := rfl
@[simp] theorem State.setRun_params (s : State) (v : RunState) : (s.setRun v).params = s.params := rfl
@[simp] theorem State.setRun_outputs (s : State) (v : RunState) : (s.setRun v).outputs = s.outputs := rfl
@[simp] theorem State.setRun_stop (s : State) (v : RunState) : (s.setRun v).stop = s.stop := rfl

@[simp] theorem State.setBreakpoints_a (s : State) (v : List CodeAddr) : (s.setBreakpoints v).a = s.a := rfl
@[simp] theorem State.setBreakpoints_b (s : State) (v : List CodeAddr) : (s.setBreakpoints v).b = s.b := rfl
@[simp] theorem State.setBreakpoints_x (s : State) (v : List CodeAddr) : (s.setBreakpoints v).x = s.x := rfl
@[simp] theorem State.setBreakpoints_y (s : State) (v : List CodeAddr) : (s.setBreakpoints v).y = s.y := rfl
@[simp] theorem State.setBreakpoints_sp (s : State) (v : List CodeAddr) : (s.setBreakpoints v).sp = s.sp := rfl
@[simp] theorem State.setBreakpoints_f (s : State) (v : List CodeAddr) : (s.setBreakpoints v).f = s.f := rfl
@[simp] theorem State.setBreakpoints_pc (s : State) (v : List CodeAddr) : (s.setBreakpoints v).pc = s.pc := rfl
@[simp] theorem State.setBreakpoints_np (s : State) (v : List CodeAddr) : (s.setBreakpoints v).np = s.np := rfl
@[simp] theorem State.setBreakpoints_nextPc (s : State) (v : List CodeAddr) : (s.setBreakpoints v).nextPc = s.nextPc := rfl
@[simp] theorem State.setBreakpoints_mem (s : State) (v : List CodeAddr) : (s.setBreakpoints v).mem = s.mem := rfl
@[simp] theorem State.setBreakpoints_rom (s : State) (v : List CodeAddr) : (s.setBreakpoints v).rom = s.rom := rfl
@[simp] theorem State.setBreakpoints_slots (s : State) (v : List CodeAddr) : (s.setBreakpoints v).slots = s.slots := rfl
@[simp] theorem State.setBreakpoints_ptReload (s : State) (v : List CodeAddr) : (s.setBreakpoints v).ptReload = s.ptReload := rfl
@[simp] theorem State.setBreakpoints_ptData (s : State) (v : List CodeAddr) : (s.setBreakpoints v).ptData = s.ptData := rfl
@[simp] theorem State.setBreakpoints_ptEnabled (s : State) (v : List CodeAddr) : (s.setBreakpoints v).ptEnabled = s.ptEnabled := rfl
@[simp] theorem State.setBreakpoints_ptStamp (s : State) (v : List CodeAddr) : (s.setBreakpoints v).ptStamp = s.ptStamp := rfl
@[simp] theorem State.setBreakpoints_clkStamp (s : State) (v : List CodeAddr) : (s.setBreakpoints v).clkStamp = s.clkStamp := rfl
@[simp] theorem State.setBreakpoints_ticks (s : State) (v : List CodeAddr) : (s.setBreakpoints v).ticks = s.ticks := rfl
@[simp] theorem State.setBreakpoints_k0 (s : State) (v : List CodeAddr) : (s.setBreakpoints v).k0 = s.k0 := rfl
@[simp] theorem State.setBreakpoints_k1 (s : State) (v : List CodeAddr) : (s.setBreakpoints v).k1 = s.k1 := rfl
@[simp] theorem State.setBreakpoints_callDepth (s : State) (v : List CodeAddr) : (s.setBreakpoints v).callDepth = s.callDepth := rfl
@[simp] theorem State.setBreakpoints_run (s : State) (v : List CodeAddr) : (s.setBreakpoints v).run = s.run := rfl
@[simp] theorem State.setBreakpoints_breakpoints (s : State) (v : List CodeAddr) : (s.setBreakpoints v).breakpoints = v := rfl
@[simp] theorem State.setBreakpoints_params (s : State) (v : List CodeAddr) : (s.setBreakpoints v).params = s.params := rfl
@[simp] theorem State.setBreakpoints_outputs (s : State) (v : List CodeAddr) : (s.setBreakpoints v).outputs = s.outputs := rfl
@[simp] theorem State.setBreakpoints_stop (s : State) (v : List CodeAddr) : (s.setBreakpoints v).stop = s.stop := rfl

@[simp] theorem State.setParams_a (s : State) (v : Params) : (s.setParams v).a = s.a := rfl
@[simp] theorem State.setParams_b (s : State) (v : Params) : (s.setParams v).b = s.b := rfl
@[simp] theorem State.setParams_x (s : State) (v : Params) : (s.setParams v).x = s.x := rfl
@[simp] theorem State.setParams_y (s : State) (v : Params) : (s.setParams v).y = s.y := rfl
@[simp] theorem State.setParams_sp (s : State) (v : Params) : (s.setParams v).sp = s.sp := rfl
@[simp] theorem State.setParams_f (s : State) (v : Params) : (s.setParams v).f = s.f := rfl
@[simp] theorem State.setParams_pc (s : State) (v : Params) : (s.setParams v).pc = s.pc := rfl
@[simp] theorem State.setParams_np (s : State) (v : Params) : (s.setParams v).np = s.np := rfl
@[simp] theorem State.setParams_nextPc (s : State) (v : Params) : (s.setParams v).nextPc = s.nextPc := rfl
@[simp] theorem State.setParams_mem (s : State) (v : Params) : (s.setParams v).mem = s.mem := rfl
@[simp] theorem State.setParams_rom (s : State) (v : Params) : (s.setParams v).rom = s.rom := rfl
@[simp] theorem State.setParams_slots (s : State) (v : Params) : (s.setParams v).slots = s.slots := rfl
@[simp] theorem State.setParams_ptReload (s : State) (v : Params) : (s.setParams v).ptReload = s.ptReload := rfl
@[simp] theorem State.setParams_ptData (s : State) (v : Params) : (s.setParams v).ptData = s.ptData := rfl
@[simp] theorem State.setParams_ptEnabled (s : State) (v : Params) : (s.setParams v).ptEnabled = s.ptEnabled := rfl
@[simp] theorem State.setParams_ptStamp (s : State) (v : Params) : (s.setParams v).ptStamp = s.ptStamp := rfl
@[simp] theorem State.setParams_clkStamp (s : State) (v : Params) : (s.setParams v).clkStamp = s.clkStamp := rfl
@[simp] theorem State.setParams_ticks (s : State) (v : Params) : (s.setParams v).ticks = s.ticks := rfl
@[simp] theorem State.setParams_k0 (s : State) (v : Params) : (s.setParams v).k0 = s.k0 := rfl
@[simp] theorem State.setParams_k1 (s : State) (v : Params) : (s.setParams v).k1 = s.k1 := rfl
@[simp] theorem State.setParams_callDepth (s : State) (v : Params) : (s.setParams v).callDepth = s.callDepth := rfl
@[simp] theorem State.setParams_run (s : State) (v : Params) : (s.setParams v).run = s.run := rfl
@[simp] theorem State.setParams_breakpoints (s : State) (v : Params) : (s.setParams v).breakpoints = s.breakpoints := rfl
@[simp] theorem State.setParams_params (s : State) (v : Params) : (s.setParams v).params = v := rfl
@[simp] theorem State.setParams_outputs (s : State) (v : Params) : (s.setParams v).outputs = s.outputs := rfl
@[simp] theorem State.setParams_stop (s : State) (v : Params) : (s.setParams v).stop = s.stop := rfl

@[simp] theorem State.setOutputs_a (s : State) (v : List Event) : (s.setOutputs v).a = s.a := rfl
@[simp] theorem State.setOutputs_b (s : State) (v : List Event) : (s.setOutputs v).b = s.b := rfl
@[simp] theorem State.setOutputs_x (s : State) (v : List Event) : (s.setOutputs v).x = s.x := rfl
@[simp] theorem State.setOutputs_y (s : State) (v : List Event) : (s.setOutputs v).y = s.y := rfl
@[simp] theorem State.setOutputs_sp (s : State) (v : List Event) : (s.setOutputs v).sp = s.sp := rfl
@[simp] theorem State.setOutputs_f (s : State) (v : List Event) : (s.setOutputs v).f = s.f := rfl
@[simp] theorem State.setOutputs_pc (s : State) (v : List Event) : (s.setOutputs v).pc = s.pc := rfl
@[simp] theorem State.setOutputs_np (s : State) (v : List Event) : (s.setOutputs v).np = s.np := rfl
@[simp] theorem State.setOutputs_nextPc (s : State) (v : List Event) : (s.setOutputs v).nextPc = s.nextPc := rfl
@[simp] theorem State.setOutputs_mem (s : State) (v : List Event) : (s.setOutputs v).mem = s.mem := rfl
@[simp] theorem State.setOutputs_rom (s : State) (v : List Event) : (s.setOutputs v).rom = s.rom := rfl
@[simp] theorem State.setOutputs_slots (s : State) (v : List Event) : (s.setOutputs v).slots = s.slots := rfl
@[simp] theorem State.setOutputs_ptReload (s : State) (v : List Event) : (s.setOutputs v).ptReload = s.ptReload := rfl
@[simp] theorem State.setOutputs_ptData (s : State) (v : List Event) : (s.setOutputs v).ptData = s.ptData := rfl
@[simp] theorem State.setOutputs_ptEnabled (s : State) (v : List Event) : (s.setOutputs v).ptEnabled = s.ptEnabled := rfl
@[simp] theorem State.setOutputs_ptStamp (s : State) (v : List Event) : (s.setOutputs v).ptStamp = s.ptStamp := rfl
@[simp] theorem State.setOutputs_clkStamp (s : State) (v : List Event) : (s.setOutputs v).clkStamp = s.clkStamp := rfl
@[simp] theorem State.setOutputs_ticks (s : State) (v : List Event) : (s.setOutputs v).ticks = s.ticks := rfl
@[simp] theorem State.setOutputs_k0 (s : State) (v : List Event) : (s.setOutputs v).k0 = s.k0 := rfl
@[simp] theorem State.setOutputs_k1 (s : State) (v : List Event) : (s.setOutputs v).k1 = s.k1 := rfl
@[simp] theorem State.setOutputs_callDepth (s : State) (v : List Event) : (s.setOutputs v).callDepth = s.callDepth := rfl
@[simp] theorem State.setOutputs_run (s : State) (v : List Event) : (s.setOutputs v).run = s.run := rfl
@[simp] theorem State.setOutputs_breakpoints (s : State) (v : List Event) : (s.setOutputs v).breakpoints = s.breakpoints := rfl
@[simp] theorem State.setOutputs_params (s : State) (v : List Event) : (s.setOutputs v).params = s.params := rfl
@[simp] theorem State.setOutputs_outputs (s : State) (v : List Event) : (s.setOutputs v).outputs = v := rfl
@[simp] theorem State.setOutputs_stop (s : State) (v : List Event) : (s.setOutputs v).stop = s.stop := rfl

@[simp] theorem State.setStop_a (s : State) (v : Bool) : (s.setStop v).a = s.a := rfl
@[simp] theorem State.setStop_b (s : State) (v : Bool) : (s.setStop v).b = s.b := rfl
@[simp] theorem State.setStop_x (s : State) (v : Bool) : (s.setStop v).x = s.x := rfl
@[simp] theorem State.setStop_y (s : State) (v : Bool) : (s.setStop v).y = s.y := rfl
@[simp] theorem State.setStop_sp (s : State) (v : Bool) : (s.setStop v).sp = s.sp := rfl
@[simp] theorem State.setStop_f (s : State) (v : Bool) : (s.setStop v).f = s.f := rfl
@[simp] theorem State.setStop_pc (s : State) (v : Bool) : (s.setStop v).pc = s.pc := rfl
@[simp] theorem State.setStop_np (s : State) (v : Bool) : (s.setStop v).np = s.np := rfl
@[simp] theorem State.setStop_nextPc (s : State) (v : Bool) : (s.setStop v).nextPc = s.nextPc := rfl
@[simp] theorem State.setStop_mem (s : State) (v : Bool) : (s.setStop v).mem = s.mem := rfl
@[simp] theorem State.setStop_rom (s : State) (v : Bool) : (s.setStop v).rom = s.rom := rfl
@[simp] theorem State.setStop_slots (s : State) (v : Bool) : (s.setStop v).slots = s.slots := rfl
@[simp] theorem State.setStop_ptReload (s : State) (v : Bool) : (s.setStop v).ptReload = s.ptReload := rfl
@[simp] theorem State.setStop_ptData (s : State) (v : Bool) : (s.setStop v).ptData = s.ptData := rfl
@[simp] theorem State.setStop_ptEnabled (s : State) (v : Bool) : (s.setStop v).ptEnabled = s.ptEnabled := rfl
@[simp] theorem State.setStop_ptStamp (s : State) (v : Bool) : (s.setStop v).ptStamp = s.ptStamp := rfl
@[simp] theorem State.setStop_clkStamp (s : State) (v : Bool) : (s.setStop v).clkStamp = s.clkStamp := rfl
@[simp] theorem State.setStop_ticks (s : State) (v : Bool) : (s.setStop v).ticks = s.ticks := rfl
@[simp] theorem State.setStop_k0 (s : State) (v : Bool) : (s.setStop v).k0 = s.k0 := rfl
@[simp] theorem State.setStop_k1 (s : State) (v : Bool) : (s.setStop v).k1 = s.k1 := rfl
@[simp] theorem State.setStop_callDepth (s : State) (v : Bool) : (s.setStop v).callDepth = s.callDepth := rfl
@[simp] theorem State.setStop_run (s : State) (v : Bool) : (s.setStop v).run = s.run := rfl
@[simp] theorem State.setStop_breakpoints (s : State) (v : Bool) : (s.setStop v).breakpoints = s.breakpoints := rfl
@[simp] theorem State.setStop_params (s : State) (v : Bool) : (s.setStop v).params = s.params := rfl
@[simp] theorem State.setStop_outputs (s : State) (v : Bool) : (s.setStop v).outputs = s.outputs := rfl
@[simp] theorem State.setStop_stop (s : State) (v : Bool) : (s.setStop v).stop = v := rfl

/-- Reading back the slot just written. -/
@[simp] theorem Slots.get_set_same (s : Slots) (i : SlotId) (v : SlotState) : (s.set i v).get i = v := by
  cases i <;> rfl

/-- Writing one slot leaves every other alone. -/
@[simp] theorem Slots.get_set_other (s : Slots) (i j : SlotId) (v : SlotState) (h : j ≠ i) :
    (s.set i v).get j = s.get j := by
  cases i <;> cases j <;> first | rfl | exact absurd rfl h

/-- Two slot banks that agree on every slot are equal. -/
theorem Slots.ext_get (s t : Slots) (h : ∀ i, s.get i = t.get i) : s = t := by
  cases s; cases t
  have h0 := h .progTimer; have h1 := h .serial; have h2 := h .k1Pins
  have h3 := h .k0Pins; have h4 := h .stopwatch; have h5 := h .clockTimer
  simp_all [Slots.get]

end Sys2Proof.Machine
end

