-- ==== Sys2Proof/Laws/Flags.lean ====
section
/-! SUPPORT. The laws of the flag register, of the adder, the subtractor and the rotations. -/

namespace Sys2Proof.Machine

/-! ### Bits of `F` -/

theorem putFlag_C_get (f : Nibble) (v : Bool) : (putFlag f bitC v).getLsbD 0 = v := by
  revert f v; decide

theorem putFlag_Z_get (f : Nibble) (v : Bool) : (putFlag f bitZ v).getLsbD 1 = v := by
  revert f v; decide

theorem putFlag_D_get (f : Nibble) (v : Bool) : (putFlag f bitD v).getLsbD 2 = v := by
  revert f v; decide

theorem putFlag_I_get (f : Nibble) (v : Bool) : (putFlag f bitI v).getLsbD 3 = v := by
  revert f v; decide

theorem putFlag_C_keeps (f : Nibble) (v : Bool) : (putFlag f bitC v).getLsbD 1 = f.getLsbD 1 ∧
    (putFlag f bitC v).getLsbD 2 = f.getLsbD 2 ∧ (putFlag f bitC v).getLsbD 3 = f.getLsbD 3 := by
  revert f v; decide

theorem putFlag_Z_keeps (f : Nibble) (v : Bool) : (putFlag f bitZ v).getLsbD 0 = f.getLsbD 0 ∧
    (putFlag f bitZ v).getLsbD 2 = f.getLsbD 2 ∧ (putFlag f bitZ v).getLsbD 3 = f.getLsbD 3 := by
  revert f v; decide

theorem putFlag_D_keeps (f : Nibble) (v : Bool) : (putFlag f bitD v).getLsbD 0 = f.getLsbD 0 ∧
    (putFlag f bitD v).getLsbD 1 = f.getLsbD 1 ∧ (putFlag f bitD v).getLsbD 3 = f.getLsbD 3 := by
  revert f v; decide

theorem putFlag_I_keeps (f : Nibble) (v : Bool) : (putFlag f bitI v).getLsbD 0 = f.getLsbD 0 ∧
    (putFlag f bitI v).getLsbD 1 = f.getLsbD 1 ∧ (putFlag f bitI v).getLsbD 2 = f.getLsbD 2 := by
  revert f v; decide

/-- A flag write changes no bit but its own. -/
theorem putFlag_frame (f bit : Nibble) (v : Bool) : putFlag f bit v &&& ~~~bit = f &&& ~~~bit := by
  revert f bit v; decide

/-! ### `C`, `Z` and both -/

@[simp] theorem flags_setF (s : State) (v : Nibble) : (s.setF v).flagC = v.getLsbD 0 ∧ (s.setF v).flagZ = v.getLsbD 1 ∧
    (s.setF v).flagD = v.getLsbD 2 ∧ (s.setF v).flagI = v.getLsbD 3 := ⟨rfl, rfl, rfl, rfl⟩

@[simp] theorem flags_setC (s : State) (v : Bool) : (s.setC v).flagC = v ∧ (s.setC v).flagZ = s.flagZ ∧
    (s.setC v).flagD = s.flagD ∧ (s.setC v).flagI = s.flagI :=
  ⟨putFlag_C_get _ _, putFlag_C_keeps _ _⟩

@[simp] theorem flags_setZ (s : State) (v : Bool) : (s.setZ v).flagC = s.flagC ∧ (s.setZ v).flagZ = v ∧
    (s.setZ v).flagD = s.flagD ∧ (s.setZ v).flagI = s.flagI :=
  ⟨(putFlag_Z_keeps _ _).1, putFlag_Z_get _ _, (putFlag_Z_keeps _ _).2⟩

@[simp] theorem flags_setD (s : State) (v : Bool) : (s.setD v).flagC = s.flagC ∧ (s.setD v).flagZ = s.flagZ ∧
    (s.setD v).flagD = v ∧ (s.setD v).flagI = s.flagI :=
  ⟨(putFlag_D_keeps _ _).1, (putFlag_D_keeps _ _).2.1, putFlag_D_get _ _, (putFlag_D_keeps _ _).2.2⟩

@[simp] theorem flags_setI (s : State) (v : Bool) : (s.setI v).flagC = s.flagC ∧ (s.setI v).flagZ = s.flagZ ∧
    (s.setI v).flagD = s.flagD ∧ (s.setI v).flagI = v :=
  ⟨(putFlag_I_keeps _ _).1, (putFlag_I_keeps _ _).2.1, (putFlag_I_keeps _ _).2.2, putFlag_I_get _ _⟩

@[simp] theorem flags_setCZ (s : State) (c z : Bool) : (s.setCZ c z).flagC = c ∧ (s.setCZ c z).flagZ = z ∧
    (s.setCZ c z).flagD = s.flagD ∧ (s.setCZ c z).flagI = s.flagI := by
  simp [State.setCZ]

/-- `C <- c ; Z <- z` changes no other bit of `F`. -/
theorem setCZ_frame (s : State) (c z : Bool) : (s.setCZ c z).f &&& 0b1100 = s.f &&& 0b1100 := by
  simp only [State.setCZ, State.setC, State.setZ, State.setF_f]
  generalize s.f = f
  revert f c z; decide

/-! ### The adder and the subtractor -/

/-- In binary mode the carry and the nibble are the 5-bit sum (R260). -/
theorem add4_binary (a b : Nibble) (cin : Bool) :
    (add4 a b cin false).1.toNat + 16 * (add4 a b cin false).2.toNat = a.toNat + b.toNat + cin.toNat := by
  revert a b cin; decide

/-- In decimal mode the carry is "sum >= 10" and the digit is the sum less 10 then (R260). -/
theorem add4_decimal (a b : Nibble) (cin : Bool) :
    (10 ≤ a.toNat + b.toNat + cin.toNat →
      (add4 a b cin true).1.toNat = (a.toNat + b.toNat + cin.toNat - 10) % 16 ∧ (add4 a b cin true).2 = true) ∧
    (a.toNat + b.toNat + cin.toNat < 10 →
      (add4 a b cin true).1.toNat = a.toNat + b.toNat + cin.toNat ∧ (add4 a b cin true).2 = false) := by
  revert a b cin; decide

/-- The borrow is the same in both modes (R261). -/
theorem sub4_borrow (a b : Nibble) (bin dec : Bool) :
    (sub4 a b bin dec).2 = true ↔ a.toNat < b.toNat + bin.toNat := by
  revert a b bin dec; decide

/-- Without a decimal borrow the nibble and the borrow are the exact difference (R261). -/
theorem sub4_exact (a b : Nibble) (bin dec : Bool) (h : (dec && (sub4 a b bin dec).2) = false) :
    (sub4 a b bin dec).1.toNat + b.toNat + bin.toNat = a.toNat + 16 * (sub4 a b bin dec).2.toNat := by
  revert a b bin dec; decide

/-- With a decimal borrow the nibble is the difference plus 10, modulo 16 (R261). -/
theorem sub4_corrected (a b : Nibble) (bin dec : Bool) (h : (dec && (sub4 a b bin dec).2) = true) :
    ((sub4 a b bin dec).1.toNat + b.toNat + bin.toNat) % 16 = (a.toNat + 10) % 16 := by
  revert a b bin dec; decide

/-! ### Rotations -/

/-- A left rotation is a doubling with the carry in at the bottom (R247). -/
theorem rotateLeft_toNat (a : Nibble) (c : Bool) :
    (rotateLeft a c).1.toNat + 16 * (rotateLeft a c).2.toNat = 2 * a.toNat + c.toNat := by
  revert a c; decide

/-- A right rotation is a halving with the carry in at the top (R248). -/
theorem rotateRight_toNat (a : Nibble) (c : Bool) :
    2 * (rotateRight a c).1.toNat + (rotateRight a c).2.toNat = a.toNat + 16 * c.toNat := by
  revert a c; decide

end Sys2Proof.Machine
end

