-- ==== Sys2Proof/Laws/Views.lean ====
section
/-! SUPPORT. What each update of State leaves alone among the views of it: the flags, the cells, the ROM words, the
ranges. -/

namespace Sys2Proof.Machine

@[simp] theorem State.setA_views (s : State) (v : Nibble) :
    (s.setA v).flagC = s.flagC ∧ (s.setA v).flagZ = s.flagZ ∧ (s.setA v).flagD = s.flagD ∧
    (s.setA v).flagI = s.flagI ∧ (∀ m, (s.setA v).cell m = s.cell m) ∧
    (∀ m, (s.setA v).romWord m = s.romWord m) ∧ (∀ m, (s.setA v).inRam m = s.inRam m) ∧
    (∀ m, (s.setA v).inDisplay m = s.inDisplay m) ∧ (∀ m, (s.setA v).inIo m = s.inIo m) ∧
    (∀ m, (s.setA v).backed m = s.backed m) ∧ (∀ m, (s.setA v).ioAccess m = s.ioAccess m) ∧
    (∀ m, (s.setA v).displayAccess m = s.displayAccess m) :=
  ⟨rfl, rfl, rfl, rfl, fun _ => rfl, fun _ => rfl, fun _ => rfl, fun _ => rfl, fun _ => rfl, fun _ => rfl, fun _ => rfl, fun _ => rfl⟩

@[simp] theorem State.setB_views (s : State) (v : Nibble) :
    (s.setB v).flagC = s.flagC ∧ (s.setB v).flagZ = s.flagZ ∧ (s.setB v).flagD = s.flagD ∧
    (s.setB v).flagI = s.flagI ∧ (∀ m, (s.setB v).cell m = s.cell m) ∧
    (∀ m, (s.setB v).romWord m = s.romWord m) ∧ (∀ m, (s.setB v).inRam m = s.inRam m) ∧
    (∀ m, (s.setB v).inDisplay m = s.inDisplay m) ∧ (∀ m, (s.setB v).inIo m = s.inIo m) ∧
    (∀ m, (s.setB v).backed m = s.backed m) ∧ (∀ m, (s.setB v).ioAccess m = s.ioAccess m) ∧
    (∀ m, (s.setB v).displayAccess m = s.displayAccess m) :=
  ⟨rfl, rfl, rfl, rfl, fun _ => rfl, fun _ => rfl, fun _ => rfl, fun _ => rfl, fun _ => rfl, fun _ => rfl, fun _ => rfl, fun _ => rfl⟩

@[simp] theorem State.setX_views (s : State) (v : DataAddr) :
    (s.setX v).flagC = s.flagC ∧ (s.setX v).flagZ = s.flagZ ∧ (s.setX v).flagD = s.flagD ∧
    (s.setX v).flagI = s.flagI ∧ (∀ m, (s.setX v).cell m = s.cell m) ∧
    (∀ m, (s.setX v).romWord m = s.romWord m) ∧ (∀ m, (s.setX v).inRam m = s.inRam m) ∧
    (∀ m, (s.setX v).inDisplay m = s.inDisplay m) ∧ (∀ m, (s.setX v).inIo m = s.inIo m) ∧
    (∀ m, (s.setX v).backed m = s.backed m) ∧ (∀ m, (s.setX v).ioAccess m = s.ioAccess m) ∧
    (∀ m, (s.setX v).displayAccess m = s.displayAccess m) :=
  ⟨rfl, rfl, rfl, rfl, fun _ => rfl, fun _ => rfl, fun _ => rfl, fun _ => rfl, fun _ => rfl, fun _ => rfl, fun _ => rfl, fun _ => rfl⟩

@[simp] theorem State.setY_views (s : State) (v : DataAddr) :
    (s.setY v).flagC = s.flagC ∧ (s.setY v).flagZ = s.flagZ ∧ (s.setY v).flagD = s.flagD ∧
    (s.setY v).flagI = s.flagI ∧ (∀ m, (s.setY v).cell m = s.cell m) ∧
    (∀ m, (s.setY v).romWord m = s.romWord m) ∧ (∀ m, (s.setY v).inRam m = s.inRam m) ∧
    (∀ m, (s.setY v).inDisplay m = s.inDisplay m) ∧ (∀ m, (s.setY v).inIo m = s.inIo m) ∧
    (∀ m, (s.setY v).backed m = s.backed m) ∧ (∀ m, (s.setY v).ioAccess m = s.ioAccess m) ∧
    (∀ m, (s.setY v).displayAccess m = s.displayAccess m) :=
  ⟨rfl, rfl, rfl, rfl, fun _ => rfl, fun _ => rfl, fun _ => rfl, fun _ => rfl, fun _ => rfl, fun _ => rfl, fun _ => rfl, fun _ => rfl⟩

@[simp] theorem State.setSp_views (s : State) (v : Octet) :
    (s.setSp v).flagC = s.flagC ∧ (s.setSp v).flagZ = s.flagZ ∧ (s.setSp v).flagD = s.flagD ∧
    (s.setSp v).flagI = s.flagI ∧ (∀ m, (s.setSp v).cell m = s.cell m) ∧
    (∀ m, (s.setSp v).romWord m = s.romWord m) ∧ (∀ m, (s.setSp v).inRam m = s.inRam m) ∧
    (∀ m, (s.setSp v).inDisplay m = s.inDisplay m) ∧ (∀ m, (s.setSp v).inIo m = s.inIo m) ∧
    (∀ m, (s.setSp v).backed m = s.backed m) ∧ (∀ m, (s.setSp v).ioAccess m = s.ioAccess m) ∧
    (∀ m, (s.setSp v).displayAccess m = s.displayAccess m) :=
  ⟨rfl, rfl, rfl, rfl, fun _ => rfl, fun _ => rfl, fun _ => rfl, fun _ => rfl, fun _ => rfl, fun _ => rfl, fun _ => rfl, fun _ => rfl⟩

@[simp] theorem State.setF_views (s : State) (v : Nibble) :
    (∀ m, (s.setF v).cell m = s.cell m) ∧ (∀ m, (s.setF v).romWord m = s.romWord m) ∧
    (∀ m, (s.setF v).inRam m = s.inRam m) ∧ (∀ m, (s.setF v).inDisplay m = s.inDisplay m) ∧
    (∀ m, (s.setF v).inIo m = s.inIo m) ∧ (∀ m, (s.setF v).backed m = s.backed m) ∧
    (∀ m, (s.setF v).ioAccess m = s.ioAccess m) ∧ (∀ m, (s.setF v).displayAccess m = s.displayAccess m) :=
  ⟨fun _ => rfl, fun _ => rfl, fun _ => rfl, fun _ => rfl, fun _ => rfl, fun _ => rfl, fun _ => rfl, fun _ => rfl⟩

@[simp] theorem State.setPc_views (s : State) (v : CodeAddr) :
    (s.setPc v).flagC = s.flagC ∧ (s.setPc v).flagZ = s.flagZ ∧ (s.setPc v).flagD = s.flagD ∧
    (s.setPc v).flagI = s.flagI ∧ (∀ m, (s.setPc v).cell m = s.cell m) ∧
    (∀ m, (s.setPc v).romWord m = s.romWord m) ∧ (∀ m, (s.setPc v).inRam m = s.inRam m) ∧
    (∀ m, (s.setPc v).inDisplay m = s.inDisplay m) ∧ (∀ m, (s.setPc v).inIo m = s.inIo m) ∧
    (∀ m, (s.setPc v).backed m = s.backed m) ∧ (∀ m, (s.setPc v).ioAccess m = s.ioAccess m) ∧
    (∀ m, (s.setPc v).displayAccess m = s.displayAccess m) :=
  ⟨rfl, rfl, rfl, rfl, fun _ => rfl, fun _ => rfl, fun _ => rfl, fun _ => rfl, fun _ => rfl, fun _ => rfl, fun _ => rfl, fun _ => rfl⟩

@[simp] theorem State.setNp_views (s : State) (v : BankPage) :
    (s.setNp v).flagC = s.flagC ∧ (s.setNp v).flagZ = s.flagZ ∧ (s.setNp v).flagD = s.flagD ∧
    (s.setNp v).flagI = s.flagI ∧ (∀ m, (s.setNp v).cell m = s.cell m) ∧
    (∀ m, (s.setNp v).romWord m = s.romWord m) ∧ (∀ m, (s.setNp v).inRam m = s.inRam m) ∧
    (∀ m, (s.setNp v).inDisplay m = s.inDisplay m) ∧ (∀ m, (s.setNp v).inIo m = s.inIo m) ∧
    (∀ m, (s.setNp v).backed m = s.backed m) ∧ (∀ m, (s.setNp v).ioAccess m = s.ioAccess m) ∧
    (∀ m, (s.setNp v).displayAccess m = s.displayAccess m) :=
  ⟨rfl, rfl, rfl, rfl, fun _ => rfl, fun _ => rfl, fun _ => rfl, fun _ => rfl, fun _ => rfl, fun _ => rfl, fun _ => rfl, fun _ => rfl⟩

@[simp] theorem State.setNextPc_views (s : State) (v : CodeAddr) :
    (s.setNextPc v).flagC = s.flagC ∧ (s.setNextPc v).flagZ = s.flagZ ∧ (s.setNextPc v).flagD = s.flagD ∧
    (s.setNextPc v).flagI = s.flagI ∧ (∀ m, (s.setNextPc v).cell m = s.cell m) ∧
    (∀ m, (s.setNextPc v).romWord m = s.romWord m) ∧ (∀ m, (s.setNextPc v).inRam m = s.inRam m) ∧
    (∀ m, (s.setNextPc v).inDisplay m = s.inDisplay m) ∧ (∀ m, (s.setNextPc v).inIo m = s.inIo m) ∧
    (∀ m, (s.setNextPc v).backed m = s.backed m) ∧ (∀ m, (s.setNextPc v).ioAccess m = s.ioAccess m) ∧
    (∀ m, (s.setNextPc v).displayAccess m = s.displayAccess m) :=
  ⟨rfl, rfl, rfl, rfl, fun _ => rfl, fun _ => rfl, fun _ => rfl, fun _ => rfl, fun _ => rfl, fun _ => rfl, fun _ => rfl, fun _ => rfl⟩

@[simp] theorem State.setMem_views (s : State) (v : List (Nat × Nibble)) :
    (s.setMem v).flagC = s.flagC ∧ (s.setMem v).flagZ = s.flagZ ∧ (s.setMem v).flagD = s.flagD ∧
    (s.setMem v).flagI = s.flagI ∧ (∀ m, (s.setMem v).romWord m = s.romWord m) ∧
    (∀ m, (s.setMem v).inRam m = s.inRam m) ∧ (∀ m, (s.setMem v).inDisplay m = s.inDisplay m) ∧
    (∀ m, (s.setMem v).inIo m = s.inIo m) ∧ (∀ m, (s.setMem v).backed m = s.backed m) ∧
    (∀ m, (s.setMem v).ioAccess m = s.ioAccess m) ∧ (∀ m, (s.setMem v).displayAccess m = s.displayAccess m) :=
  ⟨rfl, rfl, rfl, rfl, fun _ => rfl, fun _ => rfl, fun _ => rfl, fun _ => rfl, fun _ => rfl, fun _ => rfl, fun _ => rfl⟩

@[simp] theorem State.setRom_views (s : State) (v : List (Nat × InstrWord)) :
    (s.setRom v).flagC = s.flagC ∧ (s.setRom v).flagZ = s.flagZ ∧ (s.setRom v).flagD = s.flagD ∧
    (s.setRom v).flagI = s.flagI ∧ (∀ m, (s.setRom v).cell m = s.cell m) ∧
    (∀ m, (s.setRom v).inRam m = s.inRam m) ∧ (∀ m, (s.setRom v).inDisplay m = s.inDisplay m) ∧
    (∀ m, (s.setRom v).inIo m = s.inIo m) ∧ (∀ m, (s.setRom v).backed m = s.backed m) ∧
    (∀ m, (s.setRom v).ioAccess m = s.ioAccess m) ∧ (∀ m, (s.setRom v).displayAccess m = s.displayAccess m) :=
  ⟨rfl, rfl, rfl, rfl, fun _ => rfl, fun _ => rfl, fun _ => rfl, fun _ => rfl, fun _ => rfl, fun _ => rfl, fun _ => rfl⟩

@[simp] theorem State.setSlots_views (s : State) (v : Slots) :
    (s.setSlots v).flagC = s.flagC ∧ (s.setSlots v).flagZ = s.flagZ ∧ (s.setSlots v).flagD = s.flagD ∧
    (s.setSlots v).flagI = s.flagI ∧ (∀ m, (s.setSlots v).cell m = s.cell m) ∧
    (∀ m, (s.setSlots v).romWord m = s.romWord m) ∧ (∀ m, (s.setSlots v).inRam m = s.inRam m) ∧
    (∀ m, (s.setSlots v).inDisplay m = s.inDisplay m) ∧ (∀ m, (s.setSlots v).inIo m = s.inIo m) ∧
    (∀ m, (s.setSlots v).backed m = s.backed m) ∧ (∀ m, (s.setSlots v).ioAccess m = s.ioAccess m) ∧
    (∀ m, (s.setSlots v).displayAccess m = s.displayAccess m) :=
  ⟨rfl, rfl, rfl, rfl, fun _ => rfl, fun _ => rfl, fun _ => rfl, fun _ => rfl, fun _ => rfl, fun _ => rfl, fun _ => rfl, fun _ => rfl⟩

@[simp] theorem State.setPtReload_views (s : State) (v : Octet) :
    (s.setPtReload v).flagC = s.flagC ∧ (s.setPtReload v).flagZ = s.flagZ ∧ (s.setPtReload v).flagD = s.flagD ∧
    (s.setPtReload v).flagI = s.flagI ∧ (∀ m, (s.setPtReload v).cell m = s.cell m) ∧
    (∀ m, (s.setPtReload v).romWord m = s.romWord m) ∧ (∀ m, (s.setPtReload v).inRam m = s.inRam m) ∧
    (∀ m, (s.setPtReload v).inDisplay m = s.inDisplay m) ∧ (∀ m, (s.setPtReload v).inIo m = s.inIo m) ∧
    (∀ m, (s.setPtReload v).backed m = s.backed m) ∧ (∀ m, (s.setPtReload v).ioAccess m = s.ioAccess m) ∧
    (∀ m, (s.setPtReload v).displayAccess m = s.displayAccess m) :=
  ⟨rfl, rfl, rfl, rfl, fun _ => rfl, fun _ => rfl, fun _ => rfl, fun _ => rfl, fun _ => rfl, fun _ => rfl, fun _ => rfl, fun _ => rfl⟩

@[simp] theorem State.setPtData_views (s : State) (v : Octet) :
    (s.setPtData v).flagC = s.flagC ∧ (s.setPtData v).flagZ = s.flagZ ∧ (s.setPtData v).flagD = s.flagD ∧
    (s.setPtData v).flagI = s.flagI ∧ (∀ m, (s.setPtData v).cell m = s.cell m) ∧
    (∀ m, (s.setPtData v).romWord m = s.romWord m) ∧ (∀ m, (s.setPtData v).inRam m = s.inRam m) ∧
    (∀ m, (s.setPtData v).inDisplay m = s.inDisplay m) ∧ (∀ m, (s.setPtData v).inIo m = s.inIo m) ∧
    (∀ m, (s.setPtData v).backed m = s.backed m) ∧ (∀ m, (s.setPtData v).ioAccess m = s.ioAccess m) ∧
    (∀ m, (s.setPtData v).displayAccess m = s.displayAccess m) :=
  ⟨rfl, rfl, rfl, rfl, fun _ => rfl, fun _ => rfl, fun _ => rfl, fun _ => rfl, fun _ => rfl, fun _ => rfl, fun _ => rfl, fun _ => rfl⟩

@[simp] theorem State.setPtEnabled_views (s : State) (v : Bool) :
    (s.setPtEnabled v).flagC = s.flagC ∧ (s.setPtEnabled v).flagZ = s.flagZ ∧
    (s.setPtEnabled v).flagD = s.flagD ∧ (s.setPtEnabled v).flagI = s.flagI ∧
    (∀ m, (s.setPtEnabled v).cell m = s.cell m) ∧ (∀ m, (s.setPtEnabled v).romWord m = s.romWord m) ∧
    (∀ m, (s.setPtEnabled v).inRam m = s.inRam m) ∧ (∀ m, (s.setPtEnabled v).inDisplay m = s.inDisplay m) ∧
    (∀ m, (s.setPtEnabled v).inIo m = s.inIo m) ∧ (∀ m, (s.setPtEnabled v).backed m = s.backed m) ∧
    (∀ m, (s.setPtEnabled v).ioAccess m = s.ioAccess m) ∧
    (∀ m, (s.setPtEnabled v).displayAccess m = s.displayAccess m) :=
  ⟨rfl, rfl, rfl, rfl, fun _ => rfl, fun _ => rfl, fun _ => rfl, fun _ => rfl, fun _ => rfl, fun _ => rfl, fun _ => rfl, fun _ => rfl⟩

@[simp] theorem State.setPtStamp_views (s : State) (v : Nat) :
    (s.setPtStamp v).flagC = s.flagC ∧ (s.setPtStamp v).flagZ = s.flagZ ∧ (s.setPtStamp v).flagD = s.flagD ∧
    (s.setPtStamp v).flagI = s.flagI ∧ (∀ m, (s.setPtStamp v).cell m = s.cell m) ∧
    (∀ m, (s.setPtStamp v).romWord m = s.romWord m) ∧ (∀ m, (s.setPtStamp v).inRam m = s.inRam m) ∧
    (∀ m, (s.setPtStamp v).inDisplay m = s.inDisplay m) ∧ (∀ m, (s.setPtStamp v).inIo m = s.inIo m) ∧
    (∀ m, (s.setPtStamp v).backed m = s.backed m) ∧ (∀ m, (s.setPtStamp v).ioAccess m = s.ioAccess m) ∧
    (∀ m, (s.setPtStamp v).displayAccess m = s.displayAccess m) :=
  ⟨rfl, rfl, rfl, rfl, fun _ => rfl, fun _ => rfl, fun _ => rfl, fun _ => rfl, fun _ => rfl, fun _ => rfl, fun _ => rfl, fun _ => rfl⟩

@[simp] theorem State.setClkStamp_views (s : State) (v : Nat) :
    (s.setClkStamp v).flagC = s.flagC ∧ (s.setClkStamp v).flagZ = s.flagZ ∧ (s.setClkStamp v).flagD = s.flagD ∧
    (s.setClkStamp v).flagI = s.flagI ∧ (∀ m, (s.setClkStamp v).cell m = s.cell m) ∧
    (∀ m, (s.setClkStamp v).romWord m = s.romWord m) ∧ (∀ m, (s.setClkStamp v).inRam m = s.inRam m) ∧
    (∀ m, (s.setClkStamp v).inDisplay m = s.inDisplay m) ∧ (∀ m, (s.setClkStamp v).inIo m = s.inIo m) ∧
    (∀ m, (s.setClkStamp v).backed m = s.backed m) ∧ (∀ m, (s.setClkStamp v).ioAccess m = s.ioAccess m) ∧
    (∀ m, (s.setClkStamp v).displayAccess m = s.displayAccess m) :=
  ⟨rfl, rfl, rfl, rfl, fun _ => rfl, fun _ => rfl, fun _ => rfl, fun _ => rfl, fun _ => rfl, fun _ => rfl, fun _ => rfl, fun _ => rfl⟩

@[simp] theorem State.setTicks_views (s : State) (v : Nat) :
    (s.setTicks v).flagC = s.flagC ∧ (s.setTicks v).flagZ = s.flagZ ∧ (s.setTicks v).flagD = s.flagD ∧
    (s.setTicks v).flagI = s.flagI ∧ (∀ m, (s.setTicks v).cell m = s.cell m) ∧
    (∀ m, (s.setTicks v).romWord m = s.romWord m) ∧ (∀ m, (s.setTicks v).inRam m = s.inRam m) ∧
    (∀ m, (s.setTicks v).inDisplay m = s.inDisplay m) ∧ (∀ m, (s.setTicks v).inIo m = s.inIo m) ∧
    (∀ m, (s.setTicks v).backed m = s.backed m) ∧ (∀ m, (s.setTicks v).ioAccess m = s.ioAccess m) ∧
    (∀ m, (s.setTicks v).displayAccess m = s.displayAccess m) :=
  ⟨rfl, rfl, rfl, rfl, fun _ => rfl, fun _ => rfl, fun _ => rfl, fun _ => rfl, fun _ => rfl, fun _ => rfl, fun _ => rfl, fun _ => rfl⟩

@[simp] theorem State.setK0_views (s : State) (v : Nibble) :
    (s.setK0 v).flagC = s.flagC ∧ (s.setK0 v).flagZ = s.flagZ ∧ (s.setK0 v).flagD = s.flagD ∧
    (s.setK0 v).flagI = s.flagI ∧ (∀ m, (s.setK0 v).cell m = s.cell m) ∧
    (∀ m, (s.setK0 v).romWord m = s.romWord m) ∧ (∀ m, (s.setK0 v).inRam m = s.inRam m) ∧
    (∀ m, (s.setK0 v).inDisplay m = s.inDisplay m) ∧ (∀ m, (s.setK0 v).inIo m = s.inIo m) ∧
    (∀ m, (s.setK0 v).backed m = s.backed m) ∧ (∀ m, (s.setK0 v).ioAccess m = s.ioAccess m) ∧
    (∀ m, (s.setK0 v).displayAccess m = s.displayAccess m) :=
  ⟨rfl, rfl, rfl, rfl, fun _ => rfl, fun _ => rfl, fun _ => rfl, fun _ => rfl, fun _ => rfl, fun _ => rfl, fun _ => rfl, fun _ => rfl⟩

@[simp] theorem State.setK1_views (s : State) (v : Nibble) :
    (s.setK1 v).flagC = s.flagC ∧ (s.setK1 v).flagZ = s.flagZ ∧ (s.setK1 v).flagD = s.flagD ∧
    (s.setK1 v).flagI = s.flagI ∧ (∀ m, (s.setK1 v).cell m = s.cell m) ∧
    (∀ m, (s.setK1 v).romWord m = s.romWord m) ∧ (∀ m, (s.setK1 v).inRam m = s.inRam m) ∧
    (∀ m, (s.setK1 v).inDisplay m = s.inDisplay m) ∧ (∀ m, (s.setK1 v).inIo m = s.inIo m) ∧
    (∀ m, (s.setK1 v).backed m = s.backed m) ∧ (∀ m, (s.setK1 v).ioAccess m = s.ioAccess m) ∧
    (∀ m, (s.setK1 v).displayAccess m = s.displayAccess m) :=
  ⟨rfl, rfl, rfl, rfl, fun _ => rfl, fun _ => rfl, fun _ => rfl, fun _ => rfl, fun _ => rfl, fun _ => rfl, fun _ => rfl, fun _ => rfl⟩

@[simp] theorem State.setCallDepth_views (s : State) (v : Int) :
    (s.setCallDepth v).flagC = s.flagC ∧ (s.setCallDepth v).flagZ = s.flagZ ∧
    (s.setCallDepth v).flagD = s.flagD ∧ (s.setCallDepth v).flagI = s.flagI ∧
    (∀ m, (s.setCallDepth v).cell m = s.cell m) ∧ (∀ m, (s.setCallDepth v).romWord m = s.romWord m) ∧
    (∀ m, (s.setCallDepth v).inRam m = s.inRam m) ∧ (∀ m, (s.setCallDepth v).inDisplay m = s.inDisplay m) ∧
    (∀ m, (s.setCallDepth v).inIo m = s.inIo m) ∧ (∀ m, (s.setCallDepth v).backed m = s.backed m) ∧
    (∀ m, (s.setCallDepth v).ioAccess m = s.ioAccess m) ∧
    (∀ m, (s.setCallDepth v).displayAccess m = s.displayAccess m) :=
  ⟨rfl, rfl, rfl, rfl, fun _ => rfl, fun _ => rfl, fun _ => rfl, fun _ => rfl, fun _ => rfl, fun _ => rfl, fun _ => rfl, fun _ => rfl⟩

@[simp] theorem State.setRun_views (s : State) (v : RunState) :
    (s.setRun v).flagC = s.flagC ∧ (s.setRun v).flagZ = s.flagZ ∧ (s.setRun v).flagD = s.flagD ∧
    (s.setRun v).flagI = s.flagI ∧ (∀ m, (s.setRun v).cell m = s.cell m) ∧
    (∀ m, (s.setRun v).romWord m = s.romWord m) ∧ (∀ m, (s.setRun v).inRam m = s.inRam m) ∧
    (∀ m, (s.setRun v).inDisplay m = s.inDisplay m) ∧ (∀ m, (s.setRun v).inIo m = s.inIo m) ∧
    (∀ m, (s.setRun v).backed m = s.backed m) ∧ (∀ m, (s.setRun v).ioAccess m = s.ioAccess m) ∧
    (∀ m, (s.setRun v).displayAccess m = s.displayAccess m) :=
  ⟨rfl, rfl, rfl, rfl, fun _ => rfl, fun _ => rfl, fun _ => rfl, fun _ => rfl, fun _ => rfl, fun _ => rfl, fun _ => rfl, fun _ => rfl⟩

@[simp] theorem State.setBreakpoints_views (s : State) (v : List CodeAddr) :
    (s.setBreakpoints v).flagC = s.flagC ∧ (s.setBreakpoints v).flagZ = s.flagZ ∧
    (s.setBreakpoints v).flagD = s.flagD ∧ (s.setBreakpoints v).flagI = s.flagI ∧
    (∀ m, (s.setBreakpoints v).cell m = s.cell m) ∧ (∀ m, (s.setBreakpoints v).romWord m = s.romWord m) ∧
    (∀ m, (s.setBreakpoints v).inRam m = s.inRam m) ∧ (∀ m, (s.setBreakpoints v).inDisplay m = s.inDisplay m) ∧
    (∀ m, (s.setBreakpoints v).inIo m = s.inIo m) ∧ (∀ m, (s.setBreakpoints v).backed m = s.backed m) ∧
    (∀ m, (s.setBreakpoints v).ioAccess m = s.ioAccess m) ∧
    (∀ m, (s.setBreakpoints v).displayAccess m = s.displayAccess m) :=
  ⟨rfl, rfl, rfl, rfl, fun _ => rfl, fun _ => rfl, fun _ => rfl, fun _ => rfl, fun _ => rfl, fun _ => rfl, fun _ => rfl, fun _ => rfl⟩

@[simp] theorem State.setParams_views (s : State) (v : Params) :
    (s.setParams v).flagC = s.flagC ∧ (s.setParams v).flagZ = s.flagZ ∧ (s.setParams v).flagD = s.flagD ∧
    (s.setParams v).flagI = s.flagI ∧ (∀ m, (s.setParams v).cell m = s.cell m) ∧
    (∀ m, (s.setParams v).romWord m = s.romWord m) :=
  ⟨rfl, rfl, rfl, rfl, fun _ => rfl, fun _ => rfl⟩

@[simp] theorem State.setOutputs_views (s : State) (v : List Event) :
    (s.setOutputs v).flagC = s.flagC ∧ (s.setOutputs v).flagZ = s.flagZ ∧ (s.setOutputs v).flagD = s.flagD ∧
    (s.setOutputs v).flagI = s.flagI ∧ (∀ m, (s.setOutputs v).cell m = s.cell m) ∧
    (∀ m, (s.setOutputs v).romWord m = s.romWord m) ∧ (∀ m, (s.setOutputs v).inRam m = s.inRam m) ∧
    (∀ m, (s.setOutputs v).inDisplay m = s.inDisplay m) ∧ (∀ m, (s.setOutputs v).inIo m = s.inIo m) ∧
    (∀ m, (s.setOutputs v).backed m = s.backed m) ∧ (∀ m, (s.setOutputs v).ioAccess m = s.ioAccess m) ∧
    (∀ m, (s.setOutputs v).displayAccess m = s.displayAccess m) :=
  ⟨rfl, rfl, rfl, rfl, fun _ => rfl, fun _ => rfl, fun _ => rfl, fun _ => rfl, fun _ => rfl, fun _ => rfl, fun _ => rfl, fun _ => rfl⟩

@[simp] theorem State.setStop_views (s : State) (v : Bool) :
    (s.setStop v).flagC = s.flagC ∧ (s.setStop v).flagZ = s.flagZ ∧ (s.setStop v).flagD = s.flagD ∧
    (s.setStop v).flagI = s.flagI ∧ (∀ m, (s.setStop v).cell m = s.cell m) ∧
    (∀ m, (s.setStop v).romWord m = s.romWord m) ∧ (∀ m, (s.setStop v).inRam m = s.inRam m) ∧
    (∀ m, (s.setStop v).inDisplay m = s.inDisplay m) ∧ (∀ m, (s.setStop v).inIo m = s.inIo m) ∧
    (∀ m, (s.setStop v).backed m = s.backed m) ∧ (∀ m, (s.setStop v).ioAccess m = s.ioAccess m) ∧
    (∀ m, (s.setStop v).displayAccess m = s.displayAccess m) :=
  ⟨rfl, rfl, rfl, rfl, fun _ => rfl, fun _ => rfl, fun _ => rfl, fun _ => rfl, fun _ => rfl, fun _ => rfl, fun _ => rfl, fun _ => rfl⟩

end Sys2Proof.Machine
end

