-- ==== Sys2Proof/Laws/Frames.lean ====
section
/-! SUPPORT. The frame of every shared operation: the fields and the views of State it leaves alone, all at once. What an
operation does to the others is in Flags.lean, Memory.lean and Ops.lean. -/

namespace Sys2Proof.Machine

/-! ### Fields alone -/

@[simp] theorem emit_keeps (s : State) (es : List Event) :
    (s.emit es).a = s.a ∧ (s.emit es).b = s.b ∧ (s.emit es).x = s.x ∧ (s.emit es).y = s.y ∧
    (s.emit es).sp = s.sp ∧ (s.emit es).f = s.f ∧ (s.emit es).pc = s.pc ∧ (s.emit es).np = s.np ∧
    (s.emit es).nextPc = s.nextPc ∧ (s.emit es).mem = s.mem ∧ (s.emit es).rom = s.rom ∧
    (s.emit es).slots = s.slots ∧ (s.emit es).ptReload = s.ptReload ∧ (s.emit es).ptData = s.ptData ∧
    (s.emit es).ptEnabled = s.ptEnabled ∧ (s.emit es).ptStamp = s.ptStamp ∧ (s.emit es).clkStamp = s.clkStamp ∧
    (s.emit es).ticks = s.ticks ∧ (s.emit es).k0 = s.k0 ∧ (s.emit es).k1 = s.k1 ∧
    (s.emit es).callDepth = s.callDepth ∧ (s.emit es).run = s.run ∧ (s.emit es).breakpoints = s.breakpoints ∧
    (s.emit es).params = s.params ∧ (s.emit es).stop = s.stop ∧ (s.emit es).flagC = s.flagC ∧
    (s.emit es).flagZ = s.flagZ ∧ (s.emit es).flagD = s.flagD ∧ (s.emit es).flagI = s.flagI ∧
    (∀ m, (s.emit es).cell m = s.cell m) ∧ (∀ m, (s.emit es).romWord m = s.romWord m) ∧
    (∀ m, (s.emit es).inRam m = s.inRam m) ∧ (∀ m, (s.emit es).inDisplay m = s.inDisplay m) ∧
    (∀ m, (s.emit es).inIo m = s.inIo m) ∧ (∀ m, (s.emit es).backed m = s.backed m) ∧
    (∀ m, (s.emit es).ioAccess m = s.ioAccess m) ∧ (∀ m, (s.emit es).displayAccess m = s.displayAccess m) := by
  simp [State.emit]

@[simp] theorem setFactor_keeps (s : State) (i : SlotId) (v : Nibble) :
    (s.setFactor i v).a = s.a ∧ (s.setFactor i v).b = s.b ∧ (s.setFactor i v).x = s.x ∧
    (s.setFactor i v).y = s.y ∧ (s.setFactor i v).sp = s.sp ∧ (s.setFactor i v).f = s.f ∧
    (s.setFactor i v).pc = s.pc ∧ (s.setFactor i v).np = s.np ∧ (s.setFactor i v).nextPc = s.nextPc ∧
    (s.setFactor i v).mem = s.mem ∧ (s.setFactor i v).rom = s.rom ∧ (s.setFactor i v).ptReload = s.ptReload ∧
    (s.setFactor i v).ptData = s.ptData ∧ (s.setFactor i v).ptEnabled = s.ptEnabled ∧
    (s.setFactor i v).ptStamp = s.ptStamp ∧ (s.setFactor i v).clkStamp = s.clkStamp ∧
    (s.setFactor i v).ticks = s.ticks ∧ (s.setFactor i v).k0 = s.k0 ∧ (s.setFactor i v).k1 = s.k1 ∧
    (s.setFactor i v).callDepth = s.callDepth ∧ (s.setFactor i v).run = s.run ∧
    (s.setFactor i v).breakpoints = s.breakpoints ∧ (s.setFactor i v).params = s.params ∧
    (s.setFactor i v).outputs = s.outputs ∧ (s.setFactor i v).stop = s.stop ∧
    (s.setFactor i v).flagC = s.flagC ∧ (s.setFactor i v).flagZ = s.flagZ ∧ (s.setFactor i v).flagD = s.flagD ∧
    (s.setFactor i v).flagI = s.flagI ∧ (∀ m, (s.setFactor i v).cell m = s.cell m) ∧
    (∀ m, (s.setFactor i v).romWord m = s.romWord m) ∧ (∀ m, (s.setFactor i v).inRam m = s.inRam m) ∧
    (∀ m, (s.setFactor i v).inDisplay m = s.inDisplay m) ∧ (∀ m, (s.setFactor i v).inIo m = s.inIo m) ∧
    (∀ m, (s.setFactor i v).backed m = s.backed m) ∧ (∀ m, (s.setFactor i v).ioAccess m = s.ioAccess m) ∧
    (∀ m, (s.setFactor i v).displayAccess m = s.displayAccess m) := by
  simp [State.setFactor]

@[simp] theorem setMask_keeps (s : State) (i : SlotId) (v : Nibble) :
    (s.setMask i v).a = s.a ∧ (s.setMask i v).b = s.b ∧ (s.setMask i v).x = s.x ∧ (s.setMask i v).y = s.y ∧
    (s.setMask i v).sp = s.sp ∧ (s.setMask i v).f = s.f ∧ (s.setMask i v).pc = s.pc ∧
    (s.setMask i v).np = s.np ∧ (s.setMask i v).nextPc = s.nextPc ∧ (s.setMask i v).mem = s.mem ∧
    (s.setMask i v).rom = s.rom ∧ (s.setMask i v).ptReload = s.ptReload ∧ (s.setMask i v).ptData = s.ptData ∧
    (s.setMask i v).ptEnabled = s.ptEnabled ∧ (s.setMask i v).ptStamp = s.ptStamp ∧
    (s.setMask i v).clkStamp = s.clkStamp ∧ (s.setMask i v).ticks = s.ticks ∧ (s.setMask i v).k0 = s.k0 ∧
    (s.setMask i v).k1 = s.k1 ∧ (s.setMask i v).callDepth = s.callDepth ∧ (s.setMask i v).run = s.run ∧
    (s.setMask i v).breakpoints = s.breakpoints ∧ (s.setMask i v).params = s.params ∧
    (s.setMask i v).outputs = s.outputs ∧ (s.setMask i v).stop = s.stop ∧ (s.setMask i v).flagC = s.flagC ∧
    (s.setMask i v).flagZ = s.flagZ ∧ (s.setMask i v).flagD = s.flagD ∧ (s.setMask i v).flagI = s.flagI ∧
    (∀ m, (s.setMask i v).cell m = s.cell m) ∧ (∀ m, (s.setMask i v).romWord m = s.romWord m) ∧
    (∀ m, (s.setMask i v).inRam m = s.inRam m) ∧ (∀ m, (s.setMask i v).inDisplay m = s.inDisplay m) ∧
    (∀ m, (s.setMask i v).inIo m = s.inIo m) ∧ (∀ m, (s.setMask i v).backed m = s.backed m) ∧
    (∀ m, (s.setMask i v).ioAccess m = s.ioAccess m) ∧
    (∀ m, (s.setMask i v).displayAccess m = s.displayAccess m) := by
  simp [State.setMask]

@[simp] theorem setTriggered_keeps (s : State) (i : SlotId) (v : Bool) :
    (s.setTriggered i v).a = s.a ∧ (s.setTriggered i v).b = s.b ∧ (s.setTriggered i v).x = s.x ∧
    (s.setTriggered i v).y = s.y ∧ (s.setTriggered i v).sp = s.sp ∧ (s.setTriggered i v).f = s.f ∧
    (s.setTriggered i v).pc = s.pc ∧ (s.setTriggered i v).np = s.np ∧ (s.setTriggered i v).nextPc = s.nextPc ∧
    (s.setTriggered i v).mem = s.mem ∧ (s.setTriggered i v).rom = s.rom ∧
    (s.setTriggered i v).ptReload = s.ptReload ∧ (s.setTriggered i v).ptData = s.ptData ∧
    (s.setTriggered i v).ptEnabled = s.ptEnabled ∧ (s.setTriggered i v).ptStamp = s.ptStamp ∧
    (s.setTriggered i v).clkStamp = s.clkStamp ∧ (s.setTriggered i v).ticks = s.ticks ∧
    (s.setTriggered i v).k0 = s.k0 ∧ (s.setTriggered i v).k1 = s.k1 ∧
    (s.setTriggered i v).callDepth = s.callDepth ∧ (s.setTriggered i v).run = s.run ∧
    (s.setTriggered i v).breakpoints = s.breakpoints ∧ (s.setTriggered i v).params = s.params ∧
    (s.setTriggered i v).outputs = s.outputs ∧ (s.setTriggered i v).stop = s.stop ∧
    (s.setTriggered i v).flagC = s.flagC ∧ (s.setTriggered i v).flagZ = s.flagZ ∧
    (s.setTriggered i v).flagD = s.flagD ∧ (s.setTriggered i v).flagI = s.flagI ∧
    (∀ m, (s.setTriggered i v).cell m = s.cell m) ∧ (∀ m, (s.setTriggered i v).romWord m = s.romWord m) ∧
    (∀ m, (s.setTriggered i v).inRam m = s.inRam m) ∧ (∀ m, (s.setTriggered i v).inDisplay m = s.inDisplay m) ∧
    (∀ m, (s.setTriggered i v).inIo m = s.inIo m) ∧ (∀ m, (s.setTriggered i v).backed m = s.backed m) ∧
    (∀ m, (s.setTriggered i v).ioAccess m = s.ioAccess m) ∧
    (∀ m, (s.setTriggered i v).displayAccess m = s.displayAccess m) := by
  simp [State.setTriggered]

@[simp] theorem setCell_keeps (s : State) (a : DataAddr) (v : Nibble) :
    (s.setCell a v).a = s.a ∧ (s.setCell a v).b = s.b ∧ (s.setCell a v).x = s.x ∧ (s.setCell a v).y = s.y ∧
    (s.setCell a v).sp = s.sp ∧ (s.setCell a v).f = s.f ∧ (s.setCell a v).pc = s.pc ∧
    (s.setCell a v).np = s.np ∧ (s.setCell a v).nextPc = s.nextPc ∧ (s.setCell a v).rom = s.rom ∧
    (s.setCell a v).slots = s.slots ∧ (s.setCell a v).ptReload = s.ptReload ∧
    (s.setCell a v).ptData = s.ptData ∧ (s.setCell a v).ptEnabled = s.ptEnabled ∧
    (s.setCell a v).ptStamp = s.ptStamp ∧ (s.setCell a v).clkStamp = s.clkStamp ∧
    (s.setCell a v).ticks = s.ticks ∧ (s.setCell a v).k0 = s.k0 ∧ (s.setCell a v).k1 = s.k1 ∧
    (s.setCell a v).callDepth = s.callDepth ∧ (s.setCell a v).run = s.run ∧
    (s.setCell a v).breakpoints = s.breakpoints ∧ (s.setCell a v).params = s.params ∧
    (s.setCell a v).outputs = s.outputs ∧ (s.setCell a v).stop = s.stop ∧ (s.setCell a v).flagC = s.flagC ∧
    (s.setCell a v).flagZ = s.flagZ ∧ (s.setCell a v).flagD = s.flagD ∧ (s.setCell a v).flagI = s.flagI ∧
    (∀ m, (s.setCell a v).romWord m = s.romWord m) ∧ (∀ m, (s.setCell a v).inRam m = s.inRam m) ∧
    (∀ m, (s.setCell a v).inDisplay m = s.inDisplay m) ∧ (∀ m, (s.setCell a v).inIo m = s.inIo m) ∧
    (∀ m, (s.setCell a v).backed m = s.backed m) ∧ (∀ m, (s.setCell a v).ioAccess m = s.ioAccess m) ∧
    (∀ m, (s.setCell a v).displayAccess m = s.displayAccess m) := by
  simp [State.setCell]

@[simp] theorem setC_keeps (s : State) (v : Bool) :
    (s.setC v).a = s.a ∧ (s.setC v).b = s.b ∧ (s.setC v).x = s.x ∧ (s.setC v).y = s.y ∧ (s.setC v).sp = s.sp ∧
    (s.setC v).pc = s.pc ∧ (s.setC v).np = s.np ∧ (s.setC v).nextPc = s.nextPc ∧ (s.setC v).mem = s.mem ∧
    (s.setC v).rom = s.rom ∧ (s.setC v).slots = s.slots ∧ (s.setC v).ptReload = s.ptReload ∧
    (s.setC v).ptData = s.ptData ∧ (s.setC v).ptEnabled = s.ptEnabled ∧ (s.setC v).ptStamp = s.ptStamp ∧
    (s.setC v).clkStamp = s.clkStamp ∧ (s.setC v).ticks = s.ticks ∧ (s.setC v).k0 = s.k0 ∧
    (s.setC v).k1 = s.k1 ∧ (s.setC v).callDepth = s.callDepth ∧ (s.setC v).run = s.run ∧
    (s.setC v).breakpoints = s.breakpoints ∧ (s.setC v).params = s.params ∧ (s.setC v).outputs = s.outputs ∧
    (s.setC v).stop = s.stop ∧ (∀ m, (s.setC v).cell m = s.cell m) ∧ (∀ m, (s.setC v).romWord m = s.romWord m) ∧
    (∀ m, (s.setC v).inRam m = s.inRam m) ∧ (∀ m, (s.setC v).inDisplay m = s.inDisplay m) ∧
    (∀ m, (s.setC v).inIo m = s.inIo m) ∧ (∀ m, (s.setC v).backed m = s.backed m) ∧
    (∀ m, (s.setC v).ioAccess m = s.ioAccess m) ∧ (∀ m, (s.setC v).displayAccess m = s.displayAccess m) := by
  simp [State.setC]

@[simp] theorem setZ_keeps (s : State) (v : Bool) :
    (s.setZ v).a = s.a ∧ (s.setZ v).b = s.b ∧ (s.setZ v).x = s.x ∧ (s.setZ v).y = s.y ∧ (s.setZ v).sp = s.sp ∧
    (s.setZ v).pc = s.pc ∧ (s.setZ v).np = s.np ∧ (s.setZ v).nextPc = s.nextPc ∧ (s.setZ v).mem = s.mem ∧
    (s.setZ v).rom = s.rom ∧ (s.setZ v).slots = s.slots ∧ (s.setZ v).ptReload = s.ptReload ∧
    (s.setZ v).ptData = s.ptData ∧ (s.setZ v).ptEnabled = s.ptEnabled ∧ (s.setZ v).ptStamp = s.ptStamp ∧
    (s.setZ v).clkStamp = s.clkStamp ∧ (s.setZ v).ticks = s.ticks ∧ (s.setZ v).k0 = s.k0 ∧
    (s.setZ v).k1 = s.k1 ∧ (s.setZ v).callDepth = s.callDepth ∧ (s.setZ v).run = s.run ∧
    (s.setZ v).breakpoints = s.breakpoints ∧ (s.setZ v).params = s.params ∧ (s.setZ v).outputs = s.outputs ∧
    (s.setZ v).stop = s.stop ∧ (∀ m, (s.setZ v).cell m = s.cell m) ∧ (∀ m, (s.setZ v).romWord m = s.romWord m) ∧
    (∀ m, (s.setZ v).inRam m = s.inRam m) ∧ (∀ m, (s.setZ v).inDisplay m = s.inDisplay m) ∧
    (∀ m, (s.setZ v).inIo m = s.inIo m) ∧ (∀ m, (s.setZ v).backed m = s.backed m) ∧
    (∀ m, (s.setZ v).ioAccess m = s.ioAccess m) ∧ (∀ m, (s.setZ v).displayAccess m = s.displayAccess m) := by
  simp [State.setZ]

@[simp] theorem setD_keeps (s : State) (v : Bool) :
    (s.setD v).a = s.a ∧ (s.setD v).b = s.b ∧ (s.setD v).x = s.x ∧ (s.setD v).y = s.y ∧ (s.setD v).sp = s.sp ∧
    (s.setD v).pc = s.pc ∧ (s.setD v).np = s.np ∧ (s.setD v).nextPc = s.nextPc ∧ (s.setD v).mem = s.mem ∧
    (s.setD v).rom = s.rom ∧ (s.setD v).slots = s.slots ∧ (s.setD v).ptReload = s.ptReload ∧
    (s.setD v).ptData = s.ptData ∧ (s.setD v).ptEnabled = s.ptEnabled ∧ (s.setD v).ptStamp = s.ptStamp ∧
    (s.setD v).clkStamp = s.clkStamp ∧ (s.setD v).ticks = s.ticks ∧ (s.setD v).k0 = s.k0 ∧
    (s.setD v).k1 = s.k1 ∧ (s.setD v).callDepth = s.callDepth ∧ (s.setD v).run = s.run ∧
    (s.setD v).breakpoints = s.breakpoints ∧ (s.setD v).params = s.params ∧ (s.setD v).outputs = s.outputs ∧
    (s.setD v).stop = s.stop ∧ (∀ m, (s.setD v).cell m = s.cell m) ∧ (∀ m, (s.setD v).romWord m = s.romWord m) ∧
    (∀ m, (s.setD v).inRam m = s.inRam m) ∧ (∀ m, (s.setD v).inDisplay m = s.inDisplay m) ∧
    (∀ m, (s.setD v).inIo m = s.inIo m) ∧ (∀ m, (s.setD v).backed m = s.backed m) ∧
    (∀ m, (s.setD v).ioAccess m = s.ioAccess m) ∧ (∀ m, (s.setD v).displayAccess m = s.displayAccess m) := by
  simp [State.setD]

@[simp] theorem setI_keeps (s : State) (v : Bool) :
    (s.setI v).a = s.a ∧ (s.setI v).b = s.b ∧ (s.setI v).x = s.x ∧ (s.setI v).y = s.y ∧ (s.setI v).sp = s.sp ∧
    (s.setI v).pc = s.pc ∧ (s.setI v).np = s.np ∧ (s.setI v).nextPc = s.nextPc ∧ (s.setI v).mem = s.mem ∧
    (s.setI v).rom = s.rom ∧ (s.setI v).slots = s.slots ∧ (s.setI v).ptReload = s.ptReload ∧
    (s.setI v).ptData = s.ptData ∧ (s.setI v).ptEnabled = s.ptEnabled ∧ (s.setI v).ptStamp = s.ptStamp ∧
    (s.setI v).clkStamp = s.clkStamp ∧ (s.setI v).ticks = s.ticks ∧ (s.setI v).k0 = s.k0 ∧
    (s.setI v).k1 = s.k1 ∧ (s.setI v).callDepth = s.callDepth ∧ (s.setI v).run = s.run ∧
    (s.setI v).breakpoints = s.breakpoints ∧ (s.setI v).params = s.params ∧ (s.setI v).outputs = s.outputs ∧
    (s.setI v).stop = s.stop ∧ (∀ m, (s.setI v).cell m = s.cell m) ∧ (∀ m, (s.setI v).romWord m = s.romWord m) ∧
    (∀ m, (s.setI v).inRam m = s.inRam m) ∧ (∀ m, (s.setI v).inDisplay m = s.inDisplay m) ∧
    (∀ m, (s.setI v).inIo m = s.inIo m) ∧ (∀ m, (s.setI v).backed m = s.backed m) ∧
    (∀ m, (s.setI v).ioAccess m = s.ioAccess m) ∧ (∀ m, (s.setI v).displayAccess m = s.displayAccess m) := by
  simp [State.setI]

@[simp] theorem setCZ_keeps (s : State) (c z : Bool) :
    (s.setCZ c z).a = s.a ∧ (s.setCZ c z).b = s.b ∧ (s.setCZ c z).x = s.x ∧ (s.setCZ c z).y = s.y ∧
    (s.setCZ c z).sp = s.sp ∧ (s.setCZ c z).pc = s.pc ∧ (s.setCZ c z).np = s.np ∧
    (s.setCZ c z).nextPc = s.nextPc ∧ (s.setCZ c z).mem = s.mem ∧ (s.setCZ c z).rom = s.rom ∧
    (s.setCZ c z).slots = s.slots ∧ (s.setCZ c z).ptReload = s.ptReload ∧ (s.setCZ c z).ptData = s.ptData ∧
    (s.setCZ c z).ptEnabled = s.ptEnabled ∧ (s.setCZ c z).ptStamp = s.ptStamp ∧
    (s.setCZ c z).clkStamp = s.clkStamp ∧ (s.setCZ c z).ticks = s.ticks ∧ (s.setCZ c z).k0 = s.k0 ∧
    (s.setCZ c z).k1 = s.k1 ∧ (s.setCZ c z).callDepth = s.callDepth ∧ (s.setCZ c z).run = s.run ∧
    (s.setCZ c z).breakpoints = s.breakpoints ∧ (s.setCZ c z).params = s.params ∧
    (s.setCZ c z).outputs = s.outputs ∧ (s.setCZ c z).stop = s.stop ∧ (∀ m, (s.setCZ c z).cell m = s.cell m) ∧
    (∀ m, (s.setCZ c z).romWord m = s.romWord m) ∧ (∀ m, (s.setCZ c z).inRam m = s.inRam m) ∧
    (∀ m, (s.setCZ c z).inDisplay m = s.inDisplay m) ∧ (∀ m, (s.setCZ c z).inIo m = s.inIo m) ∧
    (∀ m, (s.setCZ c z).backed m = s.backed m) ∧ (∀ m, (s.setCZ c z).ioAccess m = s.ioAccess m) ∧
    (∀ m, (s.setCZ c z).displayAccess m = s.displayAccess m) := by
  simp [State.setCZ]

@[simp] theorem setArithFlags_keeps (s : State) (r : Nibble × Bool) :
    (s.setArithFlags r).a = s.a ∧ (s.setArithFlags r).b = s.b ∧ (s.setArithFlags r).x = s.x ∧
    (s.setArithFlags r).y = s.y ∧ (s.setArithFlags r).sp = s.sp ∧ (s.setArithFlags r).pc = s.pc ∧
    (s.setArithFlags r).np = s.np ∧ (s.setArithFlags r).nextPc = s.nextPc ∧ (s.setArithFlags r).mem = s.mem ∧
    (s.setArithFlags r).rom = s.rom ∧ (s.setArithFlags r).slots = s.slots ∧
    (s.setArithFlags r).ptReload = s.ptReload ∧ (s.setArithFlags r).ptData = s.ptData ∧
    (s.setArithFlags r).ptEnabled = s.ptEnabled ∧ (s.setArithFlags r).ptStamp = s.ptStamp ∧
    (s.setArithFlags r).clkStamp = s.clkStamp ∧ (s.setArithFlags r).ticks = s.ticks ∧
    (s.setArithFlags r).k0 = s.k0 ∧ (s.setArithFlags r).k1 = s.k1 ∧
    (s.setArithFlags r).callDepth = s.callDepth ∧ (s.setArithFlags r).run = s.run ∧
    (s.setArithFlags r).breakpoints = s.breakpoints ∧ (s.setArithFlags r).params = s.params ∧
    (s.setArithFlags r).outputs = s.outputs ∧ (s.setArithFlags r).stop = s.stop ∧
    (∀ m, (s.setArithFlags r).cell m = s.cell m) ∧ (∀ m, (s.setArithFlags r).romWord m = s.romWord m) ∧
    (∀ m, (s.setArithFlags r).inRam m = s.inRam m) ∧ (∀ m, (s.setArithFlags r).inDisplay m = s.inDisplay m) ∧
    (∀ m, (s.setArithFlags r).inIo m = s.inIo m) ∧ (∀ m, (s.setArithFlags r).backed m = s.backed m) ∧
    (∀ m, (s.setArithFlags r).ioAccess m = s.ioAccess m) ∧
    (∀ m, (s.setArithFlags r).displayAccess m = s.displayAccess m) := by
  simp [State.setArithFlags]

@[simp] theorem setCompareFlags_keeps (s : State) (p q : Nibble) :
    (s.setCompareFlags p q).a = s.a ∧ (s.setCompareFlags p q).b = s.b ∧ (s.setCompareFlags p q).x = s.x ∧
    (s.setCompareFlags p q).y = s.y ∧ (s.setCompareFlags p q).sp = s.sp ∧ (s.setCompareFlags p q).pc = s.pc ∧
    (s.setCompareFlags p q).np = s.np ∧ (s.setCompareFlags p q).nextPc = s.nextPc ∧
    (s.setCompareFlags p q).mem = s.mem ∧ (s.setCompareFlags p q).rom = s.rom ∧
    (s.setCompareFlags p q).slots = s.slots ∧ (s.setCompareFlags p q).ptReload = s.ptReload ∧
    (s.setCompareFlags p q).ptData = s.ptData ∧ (s.setCompareFlags p q).ptEnabled = s.ptEnabled ∧
    (s.setCompareFlags p q).ptStamp = s.ptStamp ∧ (s.setCompareFlags p q).clkStamp = s.clkStamp ∧
    (s.setCompareFlags p q).ticks = s.ticks ∧ (s.setCompareFlags p q).k0 = s.k0 ∧
    (s.setCompareFlags p q).k1 = s.k1 ∧ (s.setCompareFlags p q).callDepth = s.callDepth ∧
    (s.setCompareFlags p q).run = s.run ∧ (s.setCompareFlags p q).breakpoints = s.breakpoints ∧
    (s.setCompareFlags p q).params = s.params ∧ (s.setCompareFlags p q).outputs = s.outputs ∧
    (s.setCompareFlags p q).stop = s.stop ∧ (∀ m, (s.setCompareFlags p q).cell m = s.cell m) ∧
    (∀ m, (s.setCompareFlags p q).romWord m = s.romWord m) ∧
    (∀ m, (s.setCompareFlags p q).inRam m = s.inRam m) ∧
    (∀ m, (s.setCompareFlags p q).inDisplay m = s.inDisplay m) ∧
    (∀ m, (s.setCompareFlags p q).inIo m = s.inIo m) ∧ (∀ m, (s.setCompareFlags p q).backed m = s.backed m) ∧
    (∀ m, (s.setCompareFlags p q).ioAccess m = s.ioAccess m) ∧
    (∀ m, (s.setCompareFlags p q).displayAccess m = s.displayAccess m) := by
  simp [State.setCompareFlags]

@[simp] theorem setLogicFlag_keeps (s : State) (v : Nibble) :
    (s.setLogicFlag v).a = s.a ∧ (s.setLogicFlag v).b = s.b ∧ (s.setLogicFlag v).x = s.x ∧
    (s.setLogicFlag v).y = s.y ∧ (s.setLogicFlag v).sp = s.sp ∧ (s.setLogicFlag v).pc = s.pc ∧
    (s.setLogicFlag v).np = s.np ∧ (s.setLogicFlag v).nextPc = s.nextPc ∧ (s.setLogicFlag v).mem = s.mem ∧
    (s.setLogicFlag v).rom = s.rom ∧ (s.setLogicFlag v).slots = s.slots ∧
    (s.setLogicFlag v).ptReload = s.ptReload ∧ (s.setLogicFlag v).ptData = s.ptData ∧
    (s.setLogicFlag v).ptEnabled = s.ptEnabled ∧ (s.setLogicFlag v).ptStamp = s.ptStamp ∧
    (s.setLogicFlag v).clkStamp = s.clkStamp ∧ (s.setLogicFlag v).ticks = s.ticks ∧
    (s.setLogicFlag v).k0 = s.k0 ∧ (s.setLogicFlag v).k1 = s.k1 ∧ (s.setLogicFlag v).callDepth = s.callDepth ∧
    (s.setLogicFlag v).run = s.run ∧ (s.setLogicFlag v).breakpoints = s.breakpoints ∧
    (s.setLogicFlag v).params = s.params ∧ (s.setLogicFlag v).outputs = s.outputs ∧
    (s.setLogicFlag v).stop = s.stop ∧ (∀ m, (s.setLogicFlag v).cell m = s.cell m) ∧
    (∀ m, (s.setLogicFlag v).romWord m = s.romWord m) ∧ (∀ m, (s.setLogicFlag v).inRam m = s.inRam m) ∧
    (∀ m, (s.setLogicFlag v).inDisplay m = s.inDisplay m) ∧ (∀ m, (s.setLogicFlag v).inIo m = s.inIo m) ∧
    (∀ m, (s.setLogicFlag v).backed m = s.backed m) ∧ (∀ m, (s.setLogicFlag v).ioAccess m = s.ioAccess m) ∧
    (∀ m, (s.setLogicFlag v).displayAccess m = s.displayAccess m) := by
  simp [State.setLogicFlag]

@[simp] theorem deeper_keeps (s : State) :
    s.deeper.a = s.a ∧ s.deeper.b = s.b ∧ s.deeper.x = s.x ∧ s.deeper.y = s.y ∧ s.deeper.sp = s.sp ∧
    s.deeper.f = s.f ∧ s.deeper.pc = s.pc ∧ s.deeper.np = s.np ∧ s.deeper.nextPc = s.nextPc ∧
    s.deeper.mem = s.mem ∧ s.deeper.rom = s.rom ∧ s.deeper.slots = s.slots ∧ s.deeper.ptReload = s.ptReload ∧
    s.deeper.ptData = s.ptData ∧ s.deeper.ptEnabled = s.ptEnabled ∧ s.deeper.ptStamp = s.ptStamp ∧
    s.deeper.clkStamp = s.clkStamp ∧ s.deeper.ticks = s.ticks ∧ s.deeper.k0 = s.k0 ∧ s.deeper.k1 = s.k1 ∧
    s.deeper.run = s.run ∧ s.deeper.breakpoints = s.breakpoints ∧ s.deeper.params = s.params ∧
    s.deeper.outputs = s.outputs ∧ s.deeper.stop = s.stop ∧ s.deeper.flagC = s.flagC ∧
    s.deeper.flagZ = s.flagZ ∧ s.deeper.flagD = s.flagD ∧ s.deeper.flagI = s.flagI ∧
    (∀ m, s.deeper.cell m = s.cell m) ∧ (∀ m, s.deeper.romWord m = s.romWord m) ∧
    (∀ m, s.deeper.inRam m = s.inRam m) ∧ (∀ m, s.deeper.inDisplay m = s.inDisplay m) ∧
    (∀ m, s.deeper.inIo m = s.inIo m) ∧ (∀ m, s.deeper.backed m = s.backed m) ∧
    (∀ m, s.deeper.ioAccess m = s.ioAccess m) ∧ (∀ m, s.deeper.displayAccess m = s.displayAccess m) := by
  simp [State.deeper]

@[simp] theorem shallower_keeps (s : State) :
    s.shallower.a = s.a ∧ s.shallower.b = s.b ∧ s.shallower.x = s.x ∧ s.shallower.y = s.y ∧
    s.shallower.sp = s.sp ∧ s.shallower.f = s.f ∧ s.shallower.pc = s.pc ∧ s.shallower.np = s.np ∧
    s.shallower.nextPc = s.nextPc ∧ s.shallower.mem = s.mem ∧ s.shallower.rom = s.rom ∧
    s.shallower.slots = s.slots ∧ s.shallower.ptReload = s.ptReload ∧ s.shallower.ptData = s.ptData ∧
    s.shallower.ptEnabled = s.ptEnabled ∧ s.shallower.ptStamp = s.ptStamp ∧ s.shallower.clkStamp = s.clkStamp ∧
    s.shallower.ticks = s.ticks ∧ s.shallower.k0 = s.k0 ∧ s.shallower.k1 = s.k1 ∧ s.shallower.run = s.run ∧
    s.shallower.breakpoints = s.breakpoints ∧ s.shallower.params = s.params ∧ s.shallower.outputs = s.outputs ∧
    s.shallower.stop = s.stop ∧ s.shallower.flagC = s.flagC ∧ s.shallower.flagZ = s.flagZ ∧
    s.shallower.flagD = s.flagD ∧ s.shallower.flagI = s.flagI ∧ (∀ m, s.shallower.cell m = s.cell m) ∧
    (∀ m, s.shallower.romWord m = s.romWord m) ∧ (∀ m, s.shallower.inRam m = s.inRam m) ∧
    (∀ m, s.shallower.inDisplay m = s.inDisplay m) ∧ (∀ m, s.shallower.inIo m = s.inIo m) ∧
    (∀ m, s.shallower.backed m = s.backed m) ∧ (∀ m, s.shallower.ioAccess m = s.ioAccess m) ∧
    (∀ m, s.shallower.displayAccess m = s.displayAccess m) := by
  simp [State.shallower]

@[simp] theorem dropNibble_keeps (s : State) :
    (dropNibble s).a = s.a ∧ (dropNibble s).b = s.b ∧ (dropNibble s).x = s.x ∧ (dropNibble s).y = s.y ∧
    (dropNibble s).f = s.f ∧ (dropNibble s).pc = s.pc ∧ (dropNibble s).np = s.np ∧
    (dropNibble s).nextPc = s.nextPc ∧ (dropNibble s).mem = s.mem ∧ (dropNibble s).rom = s.rom ∧
    (dropNibble s).slots = s.slots ∧ (dropNibble s).ptReload = s.ptReload ∧ (dropNibble s).ptData = s.ptData ∧
    (dropNibble s).ptEnabled = s.ptEnabled ∧ (dropNibble s).ptStamp = s.ptStamp ∧
    (dropNibble s).clkStamp = s.clkStamp ∧ (dropNibble s).ticks = s.ticks ∧ (dropNibble s).k0 = s.k0 ∧
    (dropNibble s).k1 = s.k1 ∧ (dropNibble s).callDepth = s.callDepth ∧ (dropNibble s).run = s.run ∧
    (dropNibble s).breakpoints = s.breakpoints ∧ (dropNibble s).params = s.params ∧
    (dropNibble s).outputs = s.outputs ∧ (dropNibble s).stop = s.stop ∧ (dropNibble s).flagC = s.flagC ∧
    (dropNibble s).flagZ = s.flagZ ∧ (dropNibble s).flagD = s.flagD ∧ (dropNibble s).flagI = s.flagI ∧
    (∀ m, (dropNibble s).cell m = s.cell m) ∧ (∀ m, (dropNibble s).romWord m = s.romWord m) ∧
    (∀ m, (dropNibble s).inRam m = s.inRam m) ∧ (∀ m, (dropNibble s).inDisplay m = s.inDisplay m) ∧
    (∀ m, (dropNibble s).inIo m = s.inIo m) ∧ (∀ m, (dropNibble s).backed m = s.backed m) ∧
    (∀ m, (dropNibble s).ioAccess m = s.ioAccess m) ∧ (∀ m, (dropNibble s).displayAccess m = s.displayAccess m) := by
  simp [dropNibble]

@[simp] theorem setIdx_keeps (s : State) (k : IndexReg) (v : DataAddr) :
    (s.setIdx k v).a = s.a ∧ (s.setIdx k v).b = s.b ∧ (s.setIdx k v).sp = s.sp ∧ (s.setIdx k v).f = s.f ∧
    (s.setIdx k v).pc = s.pc ∧ (s.setIdx k v).np = s.np ∧ (s.setIdx k v).nextPc = s.nextPc ∧
    (s.setIdx k v).mem = s.mem ∧ (s.setIdx k v).rom = s.rom ∧ (s.setIdx k v).slots = s.slots ∧
    (s.setIdx k v).ptReload = s.ptReload ∧ (s.setIdx k v).ptData = s.ptData ∧
    (s.setIdx k v).ptEnabled = s.ptEnabled ∧ (s.setIdx k v).ptStamp = s.ptStamp ∧
    (s.setIdx k v).clkStamp = s.clkStamp ∧ (s.setIdx k v).ticks = s.ticks ∧ (s.setIdx k v).k0 = s.k0 ∧
    (s.setIdx k v).k1 = s.k1 ∧ (s.setIdx k v).callDepth = s.callDepth ∧ (s.setIdx k v).run = s.run ∧
    (s.setIdx k v).breakpoints = s.breakpoints ∧ (s.setIdx k v).params = s.params ∧
    (s.setIdx k v).outputs = s.outputs ∧ (s.setIdx k v).stop = s.stop ∧ (s.setIdx k v).flagC = s.flagC ∧
    (s.setIdx k v).flagZ = s.flagZ ∧ (s.setIdx k v).flagD = s.flagD ∧ (s.setIdx k v).flagI = s.flagI ∧
    (∀ m, (s.setIdx k v).cell m = s.cell m) ∧ (∀ m, (s.setIdx k v).romWord m = s.romWord m) ∧
    (∀ m, (s.setIdx k v).inRam m = s.inRam m) ∧ (∀ m, (s.setIdx k v).inDisplay m = s.inDisplay m) ∧
    (∀ m, (s.setIdx k v).inIo m = s.inIo m) ∧ (∀ m, (s.setIdx k v).backed m = s.backed m) ∧
    (∀ m, (s.setIdx k v).ioAccess m = s.ioAccess m) ∧ (∀ m, (s.setIdx k v).displayAccess m = s.displayAccess m) := by
  cases k <;> simp [State.setIdx]

@[simp] theorem bumpIdx_keeps (s : State) (k : IndexReg) (n : Octet) :
    (s.bumpIdx k n).a = s.a ∧ (s.bumpIdx k n).b = s.b ∧ (s.bumpIdx k n).sp = s.sp ∧ (s.bumpIdx k n).f = s.f ∧
    (s.bumpIdx k n).pc = s.pc ∧ (s.bumpIdx k n).np = s.np ∧ (s.bumpIdx k n).nextPc = s.nextPc ∧
    (s.bumpIdx k n).mem = s.mem ∧ (s.bumpIdx k n).rom = s.rom ∧ (s.bumpIdx k n).slots = s.slots ∧
    (s.bumpIdx k n).ptReload = s.ptReload ∧ (s.bumpIdx k n).ptData = s.ptData ∧
    (s.bumpIdx k n).ptEnabled = s.ptEnabled ∧ (s.bumpIdx k n).ptStamp = s.ptStamp ∧
    (s.bumpIdx k n).clkStamp = s.clkStamp ∧ (s.bumpIdx k n).ticks = s.ticks ∧ (s.bumpIdx k n).k0 = s.k0 ∧
    (s.bumpIdx k n).k1 = s.k1 ∧ (s.bumpIdx k n).callDepth = s.callDepth ∧ (s.bumpIdx k n).run = s.run ∧
    (s.bumpIdx k n).breakpoints = s.breakpoints ∧ (s.bumpIdx k n).params = s.params ∧
    (s.bumpIdx k n).outputs = s.outputs ∧ (s.bumpIdx k n).stop = s.stop ∧ (s.bumpIdx k n).flagC = s.flagC ∧
    (s.bumpIdx k n).flagZ = s.flagZ ∧ (s.bumpIdx k n).flagD = s.flagD ∧ (s.bumpIdx k n).flagI = s.flagI ∧
    (∀ m, (s.bumpIdx k n).cell m = s.cell m) ∧ (∀ m, (s.bumpIdx k n).romWord m = s.romWord m) ∧
    (∀ m, (s.bumpIdx k n).inRam m = s.inRam m) ∧ (∀ m, (s.bumpIdx k n).inDisplay m = s.inDisplay m) ∧
    (∀ m, (s.bumpIdx k n).inIo m = s.inIo m) ∧ (∀ m, (s.bumpIdx k n).backed m = s.backed m) ∧
    (∀ m, (s.bumpIdx k n).ioAccess m = s.ioAccess m) ∧
    (∀ m, (s.bumpIdx k n).displayAccess m = s.displayAccess m) := by
  simp [State.bumpIdx]

/-! ### Reads -/

@[simp] theorem ioReadEffect_keeps (s : State) (a : DataAddr) :
    (ioReadEffect a s).a = s.a ∧ (ioReadEffect a s).b = s.b ∧ (ioReadEffect a s).x = s.x ∧
    (ioReadEffect a s).y = s.y ∧ (ioReadEffect a s).sp = s.sp ∧ (ioReadEffect a s).f = s.f ∧
    (ioReadEffect a s).pc = s.pc ∧ (ioReadEffect a s).np = s.np ∧ (ioReadEffect a s).nextPc = s.nextPc ∧
    (ioReadEffect a s).mem = s.mem ∧ (ioReadEffect a s).rom = s.rom ∧ (ioReadEffect a s).ptReload = s.ptReload ∧
    (ioReadEffect a s).ptData = s.ptData ∧ (ioReadEffect a s).ptEnabled = s.ptEnabled ∧
    (ioReadEffect a s).ptStamp = s.ptStamp ∧ (ioReadEffect a s).clkStamp = s.clkStamp ∧
    (ioReadEffect a s).ticks = s.ticks ∧ (ioReadEffect a s).k0 = s.k0 ∧ (ioReadEffect a s).k1 = s.k1 ∧
    (ioReadEffect a s).callDepth = s.callDepth ∧ (ioReadEffect a s).run = s.run ∧
    (ioReadEffect a s).breakpoints = s.breakpoints ∧ (ioReadEffect a s).params = s.params ∧
    (ioReadEffect a s).outputs = s.outputs ∧ (ioReadEffect a s).stop = s.stop ∧
    (ioReadEffect a s).flagC = s.flagC ∧ (ioReadEffect a s).flagZ = s.flagZ ∧
    (ioReadEffect a s).flagD = s.flagD ∧ (ioReadEffect a s).flagI = s.flagI ∧
    (∀ m, (ioReadEffect a s).cell m = s.cell m) ∧ (∀ m, (ioReadEffect a s).romWord m = s.romWord m) ∧
    (∀ m, (ioReadEffect a s).inRam m = s.inRam m) ∧ (∀ m, (ioReadEffect a s).inDisplay m = s.inDisplay m) ∧
    (∀ m, (ioReadEffect a s).inIo m = s.inIo m) ∧ (∀ m, (ioReadEffect a s).backed m = s.backed m) ∧
    (∀ m, (ioReadEffect a s).ioAccess m = s.ioAccess m) ∧
    (∀ m, (ioReadEffect a s).displayAccess m = s.displayAccess m) := by
  unfold ioReadEffect; split <;> simp

@[simp] theorem memRead_keeps (s : State) (a : DataAddr) :
    (memRead a s).2.a = s.a ∧ (memRead a s).2.b = s.b ∧ (memRead a s).2.x = s.x ∧ (memRead a s).2.y = s.y ∧
    (memRead a s).2.sp = s.sp ∧ (memRead a s).2.f = s.f ∧ (memRead a s).2.pc = s.pc ∧
    (memRead a s).2.np = s.np ∧ (memRead a s).2.nextPc = s.nextPc ∧ (memRead a s).2.mem = s.mem ∧
    (memRead a s).2.rom = s.rom ∧ (memRead a s).2.ptReload = s.ptReload ∧ (memRead a s).2.ptData = s.ptData ∧
    (memRead a s).2.ptEnabled = s.ptEnabled ∧ (memRead a s).2.ptStamp = s.ptStamp ∧
    (memRead a s).2.clkStamp = s.clkStamp ∧ (memRead a s).2.ticks = s.ticks ∧ (memRead a s).2.k0 = s.k0 ∧
    (memRead a s).2.k1 = s.k1 ∧ (memRead a s).2.callDepth = s.callDepth ∧ (memRead a s).2.run = s.run ∧
    (memRead a s).2.breakpoints = s.breakpoints ∧ (memRead a s).2.params = s.params ∧
    (memRead a s).2.outputs = s.outputs ∧ (memRead a s).2.stop = s.stop ∧ (memRead a s).2.flagC = s.flagC ∧
    (memRead a s).2.flagZ = s.flagZ ∧ (memRead a s).2.flagD = s.flagD ∧ (memRead a s).2.flagI = s.flagI ∧
    (∀ m, (memRead a s).2.cell m = s.cell m) ∧ (∀ m, (memRead a s).2.romWord m = s.romWord m) ∧
    (∀ m, (memRead a s).2.inRam m = s.inRam m) ∧ (∀ m, (memRead a s).2.inDisplay m = s.inDisplay m) ∧
    (∀ m, (memRead a s).2.inIo m = s.inIo m) ∧ (∀ m, (memRead a s).2.backed m = s.backed m) ∧
    (∀ m, (memRead a s).2.ioAccess m = s.ioAccess m) ∧
    (∀ m, (memRead a s).2.displayAccess m = s.displayAccess m) := by
  unfold memRead; (repeat' split) <;> simp [ioRead]

@[simp] theorem readReg_keeps (s : State) (r : Reg) :
    (readReg r s).2.a = s.a ∧ (readReg r s).2.b = s.b ∧ (readReg r s).2.x = s.x ∧ (readReg r s).2.y = s.y ∧
    (readReg r s).2.sp = s.sp ∧ (readReg r s).2.f = s.f ∧ (readReg r s).2.pc = s.pc ∧
    (readReg r s).2.np = s.np ∧ (readReg r s).2.nextPc = s.nextPc ∧ (readReg r s).2.mem = s.mem ∧
    (readReg r s).2.rom = s.rom ∧ (readReg r s).2.ptReload = s.ptReload ∧ (readReg r s).2.ptData = s.ptData ∧
    (readReg r s).2.ptEnabled = s.ptEnabled ∧ (readReg r s).2.ptStamp = s.ptStamp ∧
    (readReg r s).2.clkStamp = s.clkStamp ∧ (readReg r s).2.ticks = s.ticks ∧ (readReg r s).2.k0 = s.k0 ∧
    (readReg r s).2.k1 = s.k1 ∧ (readReg r s).2.callDepth = s.callDepth ∧ (readReg r s).2.run = s.run ∧
    (readReg r s).2.breakpoints = s.breakpoints ∧ (readReg r s).2.params = s.params ∧
    (readReg r s).2.outputs = s.outputs ∧ (readReg r s).2.stop = s.stop ∧ (readReg r s).2.flagC = s.flagC ∧
    (readReg r s).2.flagZ = s.flagZ ∧ (readReg r s).2.flagD = s.flagD ∧ (readReg r s).2.flagI = s.flagI ∧
    (∀ m, (readReg r s).2.cell m = s.cell m) ∧ (∀ m, (readReg r s).2.romWord m = s.romWord m) ∧
    (∀ m, (readReg r s).2.inRam m = s.inRam m) ∧ (∀ m, (readReg r s).2.inDisplay m = s.inDisplay m) ∧
    (∀ m, (readReg r s).2.inIo m = s.inIo m) ∧ (∀ m, (readReg r s).2.backed m = s.backed m) ∧
    (∀ m, (readReg r s).2.ioAccess m = s.ioAccess m) ∧
    (∀ m, (readReg r s).2.displayAccess m = s.displayAccess m) := by
  cases r <;> simp [readReg]

@[simp] theorem readTop_keeps (s : State) :
    (readTop s).2.a = s.a ∧ (readTop s).2.b = s.b ∧ (readTop s).2.x = s.x ∧ (readTop s).2.y = s.y ∧
    (readTop s).2.sp = s.sp ∧ (readTop s).2.f = s.f ∧ (readTop s).2.pc = s.pc ∧ (readTop s).2.np = s.np ∧
    (readTop s).2.nextPc = s.nextPc ∧ (readTop s).2.mem = s.mem ∧ (readTop s).2.rom = s.rom ∧
    (readTop s).2.ptReload = s.ptReload ∧ (readTop s).2.ptData = s.ptData ∧
    (readTop s).2.ptEnabled = s.ptEnabled ∧ (readTop s).2.ptStamp = s.ptStamp ∧
    (readTop s).2.clkStamp = s.clkStamp ∧ (readTop s).2.ticks = s.ticks ∧ (readTop s).2.k0 = s.k0 ∧
    (readTop s).2.k1 = s.k1 ∧ (readTop s).2.callDepth = s.callDepth ∧ (readTop s).2.run = s.run ∧
    (readTop s).2.breakpoints = s.breakpoints ∧ (readTop s).2.params = s.params ∧
    (readTop s).2.outputs = s.outputs ∧ (readTop s).2.stop = s.stop ∧ (readTop s).2.flagC = s.flagC ∧
    (readTop s).2.flagZ = s.flagZ ∧ (readTop s).2.flagD = s.flagD ∧ (readTop s).2.flagI = s.flagI ∧
    (∀ m, (readTop s).2.cell m = s.cell m) ∧ (∀ m, (readTop s).2.romWord m = s.romWord m) ∧
    (∀ m, (readTop s).2.inRam m = s.inRam m) ∧ (∀ m, (readTop s).2.inDisplay m = s.inDisplay m) ∧
    (∀ m, (readTop s).2.inIo m = s.inIo m) ∧ (∀ m, (readTop s).2.backed m = s.backed m) ∧
    (∀ m, (readTop s).2.ioAccess m = s.ioAccess m) ∧ (∀ m, (readTop s).2.displayAccess m = s.displayAccess m) := by
  simp [readTop]

@[simp] theorem frameRead_keeps (s : State) (a : Option DataAddr) :
    (frameRead a s).2.a = s.a ∧ (frameRead a s).2.b = s.b ∧ (frameRead a s).2.x = s.x ∧
    (frameRead a s).2.y = s.y ∧ (frameRead a s).2.sp = s.sp ∧ (frameRead a s).2.f = s.f ∧
    (frameRead a s).2.pc = s.pc ∧ (frameRead a s).2.np = s.np ∧ (frameRead a s).2.nextPc = s.nextPc ∧
    (frameRead a s).2.mem = s.mem ∧ (frameRead a s).2.rom = s.rom ∧ (frameRead a s).2.ptReload = s.ptReload ∧
    (frameRead a s).2.ptData = s.ptData ∧ (frameRead a s).2.ptEnabled = s.ptEnabled ∧
    (frameRead a s).2.ptStamp = s.ptStamp ∧ (frameRead a s).2.clkStamp = s.clkStamp ∧
    (frameRead a s).2.ticks = s.ticks ∧ (frameRead a s).2.k0 = s.k0 ∧ (frameRead a s).2.k1 = s.k1 ∧
    (frameRead a s).2.callDepth = s.callDepth ∧ (frameRead a s).2.run = s.run ∧
    (frameRead a s).2.breakpoints = s.breakpoints ∧ (frameRead a s).2.params = s.params ∧
    (frameRead a s).2.outputs = s.outputs ∧ (frameRead a s).2.stop = s.stop ∧
    (frameRead a s).2.flagC = s.flagC ∧ (frameRead a s).2.flagZ = s.flagZ ∧ (frameRead a s).2.flagD = s.flagD ∧
    (frameRead a s).2.flagI = s.flagI ∧ (∀ m, (frameRead a s).2.cell m = s.cell m) ∧
    (∀ m, (frameRead a s).2.romWord m = s.romWord m) ∧ (∀ m, (frameRead a s).2.inRam m = s.inRam m) ∧
    (∀ m, (frameRead a s).2.inDisplay m = s.inDisplay m) ∧ (∀ m, (frameRead a s).2.inIo m = s.inIo m) ∧
    (∀ m, (frameRead a s).2.backed m = s.backed m) ∧ (∀ m, (frameRead a s).2.ioAccess m = s.ioAccess m) ∧
    (∀ m, (frameRead a s).2.displayAccess m = s.displayAccess m) := by
  cases a <;> simp [frameRead]

@[simp] theorem popPC_keeps (s : State) :
    (popPC s).2.a = s.a ∧ (popPC s).2.b = s.b ∧ (popPC s).2.x = s.x ∧ (popPC s).2.y = s.y ∧
    (popPC s).2.f = s.f ∧ (popPC s).2.pc = s.pc ∧ (popPC s).2.np = s.np ∧ (popPC s).2.nextPc = s.nextPc ∧
    (popPC s).2.mem = s.mem ∧ (popPC s).2.rom = s.rom ∧ (popPC s).2.ptReload = s.ptReload ∧
    (popPC s).2.ptData = s.ptData ∧ (popPC s).2.ptEnabled = s.ptEnabled ∧ (popPC s).2.ptStamp = s.ptStamp ∧
    (popPC s).2.clkStamp = s.clkStamp ∧ (popPC s).2.ticks = s.ticks ∧ (popPC s).2.k0 = s.k0 ∧
    (popPC s).2.k1 = s.k1 ∧ (popPC s).2.callDepth = s.callDepth ∧ (popPC s).2.run = s.run ∧
    (popPC s).2.breakpoints = s.breakpoints ∧ (popPC s).2.params = s.params ∧ (popPC s).2.outputs = s.outputs ∧
    (popPC s).2.stop = s.stop ∧ (popPC s).2.flagC = s.flagC ∧ (popPC s).2.flagZ = s.flagZ ∧
    (popPC s).2.flagD = s.flagD ∧ (popPC s).2.flagI = s.flagI ∧ (∀ m, (popPC s).2.cell m = s.cell m) ∧
    (∀ m, (popPC s).2.romWord m = s.romWord m) ∧ (∀ m, (popPC s).2.inRam m = s.inRam m) ∧
    (∀ m, (popPC s).2.inDisplay m = s.inDisplay m) ∧ (∀ m, (popPC s).2.inIo m = s.inIo m) ∧
    (∀ m, (popPC s).2.backed m = s.backed m) ∧ (∀ m, (popPC s).2.ioAccess m = s.ioAccess m) ∧
    (∀ m, (popPC s).2.displayAccess m = s.displayAccess m) := by
  simp [popPC]

@[simp] theorem returnFromCall_keeps (s : State) (skip : CodeAddr) :
    (returnFromCall skip s).a = s.a ∧ (returnFromCall skip s).b = s.b ∧ (returnFromCall skip s).x = s.x ∧
    (returnFromCall skip s).y = s.y ∧ (returnFromCall skip s).f = s.f ∧ (returnFromCall skip s).pc = s.pc ∧
    (returnFromCall skip s).np = s.np ∧ (returnFromCall skip s).mem = s.mem ∧
    (returnFromCall skip s).rom = s.rom ∧ (returnFromCall skip s).ptReload = s.ptReload ∧
    (returnFromCall skip s).ptData = s.ptData ∧ (returnFromCall skip s).ptEnabled = s.ptEnabled ∧
    (returnFromCall skip s).ptStamp = s.ptStamp ∧ (returnFromCall skip s).clkStamp = s.clkStamp ∧
    (returnFromCall skip s).ticks = s.ticks ∧ (returnFromCall skip s).k0 = s.k0 ∧
    (returnFromCall skip s).k1 = s.k1 ∧ (returnFromCall skip s).run = s.run ∧
    (returnFromCall skip s).breakpoints = s.breakpoints ∧ (returnFromCall skip s).params = s.params ∧
    (returnFromCall skip s).outputs = s.outputs ∧ (returnFromCall skip s).stop = s.stop ∧
    (returnFromCall skip s).flagC = s.flagC ∧ (returnFromCall skip s).flagZ = s.flagZ ∧
    (returnFromCall skip s).flagD = s.flagD ∧ (returnFromCall skip s).flagI = s.flagI ∧
    (∀ m, (returnFromCall skip s).cell m = s.cell m) ∧ (∀ m, (returnFromCall skip s).romWord m = s.romWord m) ∧
    (∀ m, (returnFromCall skip s).inRam m = s.inRam m) ∧
    (∀ m, (returnFromCall skip s).inDisplay m = s.inDisplay m) ∧
    (∀ m, (returnFromCall skip s).inIo m = s.inIo m) ∧ (∀ m, (returnFromCall skip s).backed m = s.backed m) ∧
    (∀ m, (returnFromCall skip s).ioAccess m = s.ioAccess m) ∧
    (∀ m, (returnFromCall skip s).displayAccess m = s.displayAccess m) := by
  simp [returnFromCall]

/-! ### Writes -/

@[simp] theorem writePtControl_keeps (s : State) (n : Nibble) :
    (writePtControl n s).a = s.a ∧ (writePtControl n s).b = s.b ∧ (writePtControl n s).x = s.x ∧
    (writePtControl n s).y = s.y ∧ (writePtControl n s).sp = s.sp ∧ (writePtControl n s).f = s.f ∧
    (writePtControl n s).pc = s.pc ∧ (writePtControl n s).np = s.np ∧ (writePtControl n s).nextPc = s.nextPc ∧
    (writePtControl n s).mem = s.mem ∧ (writePtControl n s).rom = s.rom ∧ (writePtControl n s).slots = s.slots ∧
    (writePtControl n s).ptReload = s.ptReload ∧ (writePtControl n s).clkStamp = s.clkStamp ∧
    (writePtControl n s).ticks = s.ticks ∧ (writePtControl n s).k0 = s.k0 ∧ (writePtControl n s).k1 = s.k1 ∧
    (writePtControl n s).callDepth = s.callDepth ∧ (writePtControl n s).run = s.run ∧
    (writePtControl n s).breakpoints = s.breakpoints ∧ (writePtControl n s).params = s.params ∧
    (writePtControl n s).outputs = s.outputs ∧ (writePtControl n s).stop = s.stop ∧
    (writePtControl n s).flagC = s.flagC ∧ (writePtControl n s).flagZ = s.flagZ ∧
    (writePtControl n s).flagD = s.flagD ∧ (writePtControl n s).flagI = s.flagI ∧
    (∀ m, (writePtControl n s).cell m = s.cell m) ∧ (∀ m, (writePtControl n s).romWord m = s.romWord m) ∧
    (∀ m, (writePtControl n s).inRam m = s.inRam m) ∧ (∀ m, (writePtControl n s).inDisplay m = s.inDisplay m) ∧
    (∀ m, (writePtControl n s).inIo m = s.inIo m) ∧ (∀ m, (writePtControl n s).backed m = s.backed m) ∧
    (∀ m, (writePtControl n s).ioAccess m = s.ioAccess m) ∧
    (∀ m, (writePtControl n s).displayAccess m = s.displayAccess m) := by
  unfold writePtControl; dsimp only; (repeat' split) <;> simp

@[simp] theorem ioWrite_keeps (s : State) (a : DataAddr) (n : Nibble) :
    (ioWrite a n s).a = s.a ∧ (ioWrite a n s).b = s.b ∧ (ioWrite a n s).x = s.x ∧ (ioWrite a n s).y = s.y ∧
    (ioWrite a n s).sp = s.sp ∧ (ioWrite a n s).f = s.f ∧ (ioWrite a n s).pc = s.pc ∧
    (ioWrite a n s).np = s.np ∧ (ioWrite a n s).nextPc = s.nextPc ∧ (ioWrite a n s).mem = s.mem ∧
    (ioWrite a n s).rom = s.rom ∧ (ioWrite a n s).clkStamp = s.clkStamp ∧ (ioWrite a n s).ticks = s.ticks ∧
    (ioWrite a n s).k0 = s.k0 ∧ (ioWrite a n s).k1 = s.k1 ∧ (ioWrite a n s).callDepth = s.callDepth ∧
    (ioWrite a n s).run = s.run ∧ (ioWrite a n s).breakpoints = s.breakpoints ∧
    (ioWrite a n s).params = s.params ∧ (ioWrite a n s).stop = s.stop ∧ (ioWrite a n s).flagC = s.flagC ∧
    (ioWrite a n s).flagZ = s.flagZ ∧ (ioWrite a n s).flagD = s.flagD ∧ (ioWrite a n s).flagI = s.flagI ∧
    (∀ m, (ioWrite a n s).cell m = s.cell m) ∧ (∀ m, (ioWrite a n s).romWord m = s.romWord m) ∧
    (∀ m, (ioWrite a n s).inRam m = s.inRam m) ∧ (∀ m, (ioWrite a n s).inDisplay m = s.inDisplay m) ∧
    (∀ m, (ioWrite a n s).inIo m = s.inIo m) ∧ (∀ m, (ioWrite a n s).backed m = s.backed m) ∧
    (∀ m, (ioWrite a n s).ioAccess m = s.ioAccess m) ∧
    (∀ m, (ioWrite a n s).displayAccess m = s.displayAccess m) := by
  unfold ioWrite; split <;> simp

@[simp] theorem memWrite_keeps (s : State) (a : DataAddr) (n : Nibble) :
    (memWrite a n s).a = s.a ∧ (memWrite a n s).b = s.b ∧ (memWrite a n s).x = s.x ∧ (memWrite a n s).y = s.y ∧
    (memWrite a n s).sp = s.sp ∧ (memWrite a n s).f = s.f ∧ (memWrite a n s).pc = s.pc ∧
    (memWrite a n s).np = s.np ∧ (memWrite a n s).nextPc = s.nextPc ∧ (memWrite a n s).rom = s.rom ∧
    (memWrite a n s).clkStamp = s.clkStamp ∧ (memWrite a n s).ticks = s.ticks ∧ (memWrite a n s).k0 = s.k0 ∧
    (memWrite a n s).k1 = s.k1 ∧ (memWrite a n s).callDepth = s.callDepth ∧ (memWrite a n s).run = s.run ∧
    (memWrite a n s).breakpoints = s.breakpoints ∧ (memWrite a n s).params = s.params ∧
    (memWrite a n s).stop = s.stop ∧ (memWrite a n s).flagC = s.flagC ∧ (memWrite a n s).flagZ = s.flagZ ∧
    (memWrite a n s).flagD = s.flagD ∧ (memWrite a n s).flagI = s.flagI ∧
    (∀ m, (memWrite a n s).romWord m = s.romWord m) ∧ (∀ m, (memWrite a n s).inRam m = s.inRam m) ∧
    (∀ m, (memWrite a n s).inDisplay m = s.inDisplay m) ∧ (∀ m, (memWrite a n s).inIo m = s.inIo m) ∧
    (∀ m, (memWrite a n s).backed m = s.backed m) ∧ (∀ m, (memWrite a n s).ioAccess m = s.ioAccess m) ∧
    (∀ m, (memWrite a n s).displayAccess m = s.displayAccess m) := by
  unfold memWrite; (repeat' split) <;> simp

@[simp] theorem writeReg_keeps (s : State) (r : Reg) (n : Nibble) :
    (writeReg r n s).x = s.x ∧ (writeReg r n s).y = s.y ∧ (writeReg r n s).sp = s.sp ∧
    (writeReg r n s).f = s.f ∧ (writeReg r n s).pc = s.pc ∧ (writeReg r n s).np = s.np ∧
    (writeReg r n s).nextPc = s.nextPc ∧ (writeReg r n s).rom = s.rom ∧ (writeReg r n s).clkStamp = s.clkStamp ∧
    (writeReg r n s).ticks = s.ticks ∧ (writeReg r n s).k0 = s.k0 ∧ (writeReg r n s).k1 = s.k1 ∧
    (writeReg r n s).callDepth = s.callDepth ∧ (writeReg r n s).run = s.run ∧
    (writeReg r n s).breakpoints = s.breakpoints ∧ (writeReg r n s).params = s.params ∧
    (writeReg r n s).stop = s.stop ∧ (writeReg r n s).flagC = s.flagC ∧ (writeReg r n s).flagZ = s.flagZ ∧
    (writeReg r n s).flagD = s.flagD ∧ (writeReg r n s).flagI = s.flagI ∧
    (∀ m, (writeReg r n s).romWord m = s.romWord m) ∧ (∀ m, (writeReg r n s).inRam m = s.inRam m) ∧
    (∀ m, (writeReg r n s).inDisplay m = s.inDisplay m) ∧ (∀ m, (writeReg r n s).inIo m = s.inIo m) ∧
    (∀ m, (writeReg r n s).backed m = s.backed m) ∧ (∀ m, (writeReg r n s).ioAccess m = s.ioAccess m) ∧
    (∀ m, (writeReg r n s).displayAccess m = s.displayAccess m) := by
  cases r <;> simp [writeReg]

@[simp] theorem pushNibble_keeps (s : State) (n : Nibble) :
    (pushNibble n s).a = s.a ∧ (pushNibble n s).b = s.b ∧ (pushNibble n s).x = s.x ∧ (pushNibble n s).y = s.y ∧
    (pushNibble n s).f = s.f ∧ (pushNibble n s).pc = s.pc ∧ (pushNibble n s).np = s.np ∧
    (pushNibble n s).nextPc = s.nextPc ∧ (pushNibble n s).rom = s.rom ∧ (pushNibble n s).clkStamp = s.clkStamp ∧
    (pushNibble n s).ticks = s.ticks ∧ (pushNibble n s).k0 = s.k0 ∧ (pushNibble n s).k1 = s.k1 ∧
    (pushNibble n s).callDepth = s.callDepth ∧ (pushNibble n s).run = s.run ∧
    (pushNibble n s).breakpoints = s.breakpoints ∧ (pushNibble n s).params = s.params ∧
    (pushNibble n s).stop = s.stop ∧ (pushNibble n s).flagC = s.flagC ∧ (pushNibble n s).flagZ = s.flagZ ∧
    (pushNibble n s).flagD = s.flagD ∧ (pushNibble n s).flagI = s.flagI ∧
    (∀ m, (pushNibble n s).romWord m = s.romWord m) ∧ (∀ m, (pushNibble n s).inRam m = s.inRam m) ∧
    (∀ m, (pushNibble n s).inDisplay m = s.inDisplay m) ∧ (∀ m, (pushNibble n s).inIo m = s.inIo m) ∧
    (∀ m, (pushNibble n s).backed m = s.backed m) ∧ (∀ m, (pushNibble n s).ioAccess m = s.ioAccess m) ∧
    (∀ m, (pushNibble n s).displayAccess m = s.displayAccess m) := by
  simp [pushNibble]

@[simp] theorem frameWrite_keeps (s : State) (a : Option DataAddr) (n : Nibble) :
    (frameWrite a n s).a = s.a ∧ (frameWrite a n s).b = s.b ∧ (frameWrite a n s).x = s.x ∧
    (frameWrite a n s).y = s.y ∧ (frameWrite a n s).sp = s.sp ∧ (frameWrite a n s).f = s.f ∧
    (frameWrite a n s).pc = s.pc ∧ (frameWrite a n s).np = s.np ∧ (frameWrite a n s).nextPc = s.nextPc ∧
    (frameWrite a n s).rom = s.rom ∧ (frameWrite a n s).clkStamp = s.clkStamp ∧
    (frameWrite a n s).ticks = s.ticks ∧ (frameWrite a n s).k0 = s.k0 ∧ (frameWrite a n s).k1 = s.k1 ∧
    (frameWrite a n s).callDepth = s.callDepth ∧ (frameWrite a n s).run = s.run ∧
    (frameWrite a n s).breakpoints = s.breakpoints ∧ (frameWrite a n s).params = s.params ∧
    (frameWrite a n s).stop = s.stop ∧ (frameWrite a n s).flagC = s.flagC ∧ (frameWrite a n s).flagZ = s.flagZ ∧
    (frameWrite a n s).flagD = s.flagD ∧ (frameWrite a n s).flagI = s.flagI ∧
    (∀ m, (frameWrite a n s).romWord m = s.romWord m) ∧ (∀ m, (frameWrite a n s).inRam m = s.inRam m) ∧
    (∀ m, (frameWrite a n s).inDisplay m = s.inDisplay m) ∧ (∀ m, (frameWrite a n s).inIo m = s.inIo m) ∧
    (∀ m, (frameWrite a n s).backed m = s.backed m) ∧ (∀ m, (frameWrite a n s).ioAccess m = s.ioAccess m) ∧
    (∀ m, (frameWrite a n s).displayAccess m = s.displayAccess m) := by
  cases a <;> simp [frameWrite]

@[simp] theorem pushPC_keeps (s : State) (ra : CodeAddr) :
    (pushPC ra s).a = s.a ∧ (pushPC ra s).b = s.b ∧ (pushPC ra s).x = s.x ∧ (pushPC ra s).y = s.y ∧
    (pushPC ra s).f = s.f ∧ (pushPC ra s).pc = s.pc ∧ (pushPC ra s).np = s.np ∧
    (pushPC ra s).nextPc = s.nextPc ∧ (pushPC ra s).rom = s.rom ∧ (pushPC ra s).clkStamp = s.clkStamp ∧
    (pushPC ra s).ticks = s.ticks ∧ (pushPC ra s).k0 = s.k0 ∧ (pushPC ra s).k1 = s.k1 ∧
    (pushPC ra s).callDepth = s.callDepth ∧ (pushPC ra s).run = s.run ∧
    (pushPC ra s).breakpoints = s.breakpoints ∧ (pushPC ra s).params = s.params ∧ (pushPC ra s).stop = s.stop ∧
    (pushPC ra s).flagC = s.flagC ∧ (pushPC ra s).flagZ = s.flagZ ∧ (pushPC ra s).flagD = s.flagD ∧
    (pushPC ra s).flagI = s.flagI ∧ (∀ m, (pushPC ra s).romWord m = s.romWord m) ∧
    (∀ m, (pushPC ra s).inRam m = s.inRam m) ∧ (∀ m, (pushPC ra s).inDisplay m = s.inDisplay m) ∧
    (∀ m, (pushPC ra s).inIo m = s.inIo m) ∧ (∀ m, (pushPC ra s).backed m = s.backed m) ∧
    (∀ m, (pushPC ra s).ioAccess m = s.ioAccess m) ∧ (∀ m, (pushPC ra s).displayAccess m = s.displayAccess m) := by
  simp [pushPC]

@[simp] theorem callTo_keeps (s : State) (t : CodeAddr) :
    (callTo t s).a = s.a ∧ (callTo t s).b = s.b ∧ (callTo t s).x = s.x ∧ (callTo t s).y = s.y ∧
    (callTo t s).f = s.f ∧ (callTo t s).pc = s.pc ∧ (callTo t s).np = s.np ∧ (callTo t s).rom = s.rom ∧
    (callTo t s).clkStamp = s.clkStamp ∧ (callTo t s).ticks = s.ticks ∧ (callTo t s).k0 = s.k0 ∧
    (callTo t s).k1 = s.k1 ∧ (callTo t s).run = s.run ∧ (callTo t s).breakpoints = s.breakpoints ∧
    (callTo t s).params = s.params ∧ (callTo t s).stop = s.stop ∧ (callTo t s).flagC = s.flagC ∧
    (callTo t s).flagZ = s.flagZ ∧ (callTo t s).flagD = s.flagD ∧ (callTo t s).flagI = s.flagI ∧
    (∀ m, (callTo t s).romWord m = s.romWord m) ∧ (∀ m, (callTo t s).inRam m = s.inRam m) ∧
    (∀ m, (callTo t s).inDisplay m = s.inDisplay m) ∧ (∀ m, (callTo t s).inIo m = s.inIo m) ∧
    (∀ m, (callTo t s).backed m = s.backed m) ∧ (∀ m, (callTo t s).ioAccess m = s.ioAccess m) ∧
    (∀ m, (callTo t s).displayAccess m = s.displayAccess m) := by
  simp [callTo]

@[simp] theorem storePairAtX_keeps (s : State) (l : Octet) :
    (storePairAtX l s).a = s.a ∧ (storePairAtX l s).b = s.b ∧ (storePairAtX l s).y = s.y ∧
    (storePairAtX l s).sp = s.sp ∧ (storePairAtX l s).f = s.f ∧ (storePairAtX l s).pc = s.pc ∧
    (storePairAtX l s).np = s.np ∧ (storePairAtX l s).nextPc = s.nextPc ∧ (storePairAtX l s).rom = s.rom ∧
    (storePairAtX l s).clkStamp = s.clkStamp ∧ (storePairAtX l s).ticks = s.ticks ∧
    (storePairAtX l s).k0 = s.k0 ∧ (storePairAtX l s).k1 = s.k1 ∧ (storePairAtX l s).callDepth = s.callDepth ∧
    (storePairAtX l s).run = s.run ∧ (storePairAtX l s).breakpoints = s.breakpoints ∧
    (storePairAtX l s).params = s.params ∧ (storePairAtX l s).stop = s.stop ∧
    (storePairAtX l s).flagC = s.flagC ∧ (storePairAtX l s).flagZ = s.flagZ ∧
    (storePairAtX l s).flagD = s.flagD ∧ (storePairAtX l s).flagI = s.flagI ∧
    (∀ m, (storePairAtX l s).romWord m = s.romWord m) ∧ (∀ m, (storePairAtX l s).inRam m = s.inRam m) ∧
    (∀ m, (storePairAtX l s).inDisplay m = s.inDisplay m) ∧ (∀ m, (storePairAtX l s).inIo m = s.inIo m) ∧
    (∀ m, (storePairAtX l s).backed m = s.backed m) ∧ (∀ m, (storePairAtX l s).ioAccess m = s.ioAccess m) ∧
    (∀ m, (storePairAtX l s).displayAccess m = s.displayAccess m) := by
  simp [storePairAtX, State.bumpIdx, State.setIdx]

/-! ### Interrupts and timers -/

@[simp] theorem generateInterrupt_keeps (s : State) (i : SlotId) (b : BitVec 2) :
    (generateInterrupt i b s).a = s.a ∧ (generateInterrupt i b s).b = s.b ∧ (generateInterrupt i b s).x = s.x ∧
    (generateInterrupt i b s).y = s.y ∧ (generateInterrupt i b s).sp = s.sp ∧
    (generateInterrupt i b s).f = s.f ∧ (generateInterrupt i b s).pc = s.pc ∧
    (generateInterrupt i b s).np = s.np ∧ (generateInterrupt i b s).nextPc = s.nextPc ∧
    (generateInterrupt i b s).mem = s.mem ∧ (generateInterrupt i b s).rom = s.rom ∧
    (generateInterrupt i b s).ptReload = s.ptReload ∧ (generateInterrupt i b s).ptData = s.ptData ∧
    (generateInterrupt i b s).ptEnabled = s.ptEnabled ∧ (generateInterrupt i b s).ptStamp = s.ptStamp ∧
    (generateInterrupt i b s).clkStamp = s.clkStamp ∧ (generateInterrupt i b s).ticks = s.ticks ∧
    (generateInterrupt i b s).k0 = s.k0 ∧ (generateInterrupt i b s).k1 = s.k1 ∧
    (generateInterrupt i b s).callDepth = s.callDepth ∧ (generateInterrupt i b s).run = s.run ∧
    (generateInterrupt i b s).breakpoints = s.breakpoints ∧ (generateInterrupt i b s).params = s.params ∧
    (generateInterrupt i b s).outputs = s.outputs ∧ (generateInterrupt i b s).stop = s.stop ∧
    (generateInterrupt i b s).flagC = s.flagC ∧ (generateInterrupt i b s).flagZ = s.flagZ ∧
    (generateInterrupt i b s).flagD = s.flagD ∧ (generateInterrupt i b s).flagI = s.flagI ∧
    (∀ m, (generateInterrupt i b s).cell m = s.cell m) ∧
    (∀ m, (generateInterrupt i b s).romWord m = s.romWord m) ∧
    (∀ m, (generateInterrupt i b s).inRam m = s.inRam m) ∧
    (∀ m, (generateInterrupt i b s).inDisplay m = s.inDisplay m) ∧
    (∀ m, (generateInterrupt i b s).inIo m = s.inIo m) ∧
    (∀ m, (generateInterrupt i b s).backed m = s.backed m) ∧
    (∀ m, (generateInterrupt i b s).ioAccess m = s.ioAccess m) ∧
    (∀ m, (generateInterrupt i b s).displayAccess m = s.displayAccess m) := by
  unfold generateInterrupt; dsimp only; split <;> simp

@[simp] theorem enterInterrupt_keeps (s : State) (i : SlotId) :
    (enterInterrupt i s).a = s.a ∧ (enterInterrupt i s).b = s.b ∧ (enterInterrupt i s).x = s.x ∧
    (enterInterrupt i s).y = s.y ∧ (enterInterrupt i s).nextPc = s.nextPc ∧ (enterInterrupt i s).rom = s.rom ∧
    (enterInterrupt i s).clkStamp = s.clkStamp ∧ (enterInterrupt i s).k0 = s.k0 ∧
    (enterInterrupt i s).k1 = s.k1 ∧ (enterInterrupt i s).run = s.run ∧
    (enterInterrupt i s).breakpoints = s.breakpoints ∧ (enterInterrupt i s).params = s.params ∧
    (enterInterrupt i s).stop = s.stop ∧ (∀ m, (enterInterrupt i s).romWord m = s.romWord m) ∧
    (∀ m, (enterInterrupt i s).inRam m = s.inRam m) ∧ (∀ m, (enterInterrupt i s).inDisplay m = s.inDisplay m) ∧
    (∀ m, (enterInterrupt i s).inIo m = s.inIo m) ∧ (∀ m, (enterInterrupt i s).backed m = s.backed m) ∧
    (∀ m, (enterInterrupt i s).ioAccess m = s.ioAccess m) ∧
    (∀ m, (enterInterrupt i s).displayAccess m = s.displayAccess m) := by
  simp [enterInterrupt]

@[simp] theorem enterIfTriggered_keeps (s : State) (i : SlotId) :
    (enterIfTriggered s i).a = s.a ∧ (enterIfTriggered s i).b = s.b ∧ (enterIfTriggered s i).x = s.x ∧
    (enterIfTriggered s i).y = s.y ∧ (enterIfTriggered s i).nextPc = s.nextPc ∧
    (enterIfTriggered s i).rom = s.rom ∧ (enterIfTriggered s i).clkStamp = s.clkStamp ∧
    (enterIfTriggered s i).k0 = s.k0 ∧ (enterIfTriggered s i).k1 = s.k1 ∧ (enterIfTriggered s i).run = s.run ∧
    (enterIfTriggered s i).breakpoints = s.breakpoints ∧ (enterIfTriggered s i).params = s.params ∧
    (enterIfTriggered s i).stop = s.stop ∧ (∀ m, (enterIfTriggered s i).romWord m = s.romWord m) ∧
    (∀ m, (enterIfTriggered s i).inRam m = s.inRam m) ∧
    (∀ m, (enterIfTriggered s i).inDisplay m = s.inDisplay m) ∧
    (∀ m, (enterIfTriggered s i).inIo m = s.inIo m) ∧ (∀ m, (enterIfTriggered s i).backed m = s.backed m) ∧
    (∀ m, (enterIfTriggered s i).ioAccess m = s.ioAccess m) ∧
    (∀ m, (enterIfTriggered s i).displayAccess m = s.displayAccess m) := by
  unfold enterIfTriggered; split <;> simp

@[simp] theorem processInterrupts_keeps (s : State) :
    (processInterrupts s).a = s.a ∧ (processInterrupts s).b = s.b ∧ (processInterrupts s).x = s.x ∧
    (processInterrupts s).y = s.y ∧ (processInterrupts s).nextPc = s.nextPc ∧
    (processInterrupts s).rom = s.rom ∧ (processInterrupts s).clkStamp = s.clkStamp ∧
    (processInterrupts s).k0 = s.k0 ∧ (processInterrupts s).k1 = s.k1 ∧ (processInterrupts s).run = s.run ∧
    (processInterrupts s).breakpoints = s.breakpoints ∧ (processInterrupts s).params = s.params ∧
    (processInterrupts s).stop = s.stop ∧ (∀ m, (processInterrupts s).romWord m = s.romWord m) ∧
    (∀ m, (processInterrupts s).inRam m = s.inRam m) ∧
    (∀ m, (processInterrupts s).inDisplay m = s.inDisplay m) ∧ (∀ m, (processInterrupts s).inIo m = s.inIo m) ∧
    (∀ m, (processInterrupts s).backed m = s.backed m) ∧
    (∀ m, (processInterrupts s).ioAccess m = s.ioAccess m) ∧
    (∀ m, (processInterrupts s).displayAccess m = s.displayAccess m) := by
  simp [processInterrupts, slotOrder]

@[simp] theorem clockPeriod_keeps (s : State) :
    (clockPeriod s).a = s.a ∧ (clockPeriod s).b = s.b ∧ (clockPeriod s).x = s.x ∧ (clockPeriod s).y = s.y ∧
    (clockPeriod s).sp = s.sp ∧ (clockPeriod s).f = s.f ∧ (clockPeriod s).pc = s.pc ∧
    (clockPeriod s).np = s.np ∧ (clockPeriod s).nextPc = s.nextPc ∧ (clockPeriod s).mem = s.mem ∧
    (clockPeriod s).rom = s.rom ∧ (clockPeriod s).ptReload = s.ptReload ∧ (clockPeriod s).ptData = s.ptData ∧
    (clockPeriod s).ptEnabled = s.ptEnabled ∧ (clockPeriod s).ptStamp = s.ptStamp ∧
    (clockPeriod s).ticks = s.ticks ∧ (clockPeriod s).k0 = s.k0 ∧ (clockPeriod s).k1 = s.k1 ∧
    (clockPeriod s).callDepth = s.callDepth ∧ (clockPeriod s).run = s.run ∧
    (clockPeriod s).breakpoints = s.breakpoints ∧ (clockPeriod s).params = s.params ∧
    (clockPeriod s).outputs = s.outputs ∧ (clockPeriod s).stop = s.stop ∧ (clockPeriod s).flagC = s.flagC ∧
    (clockPeriod s).flagZ = s.flagZ ∧ (clockPeriod s).flagD = s.flagD ∧ (clockPeriod s).flagI = s.flagI ∧
    (∀ m, (clockPeriod s).cell m = s.cell m) ∧ (∀ m, (clockPeriod s).romWord m = s.romWord m) ∧
    (∀ m, (clockPeriod s).inRam m = s.inRam m) ∧ (∀ m, (clockPeriod s).inDisplay m = s.inDisplay m) ∧
    (∀ m, (clockPeriod s).inIo m = s.inIo m) ∧ (∀ m, (clockPeriod s).backed m = s.backed m) ∧
    (∀ m, (clockPeriod s).ioAccess m = s.ioAccess m) ∧
    (∀ m, (clockPeriod s).displayAccess m = s.displayAccess m) := by
  simp [clockPeriod]

@[simp] theorem clockLoop_keeps (n : Nat) (s : State) :
    (clockLoop n s).a = s.a ∧ (clockLoop n s).b = s.b ∧ (clockLoop n s).x = s.x ∧ (clockLoop n s).y = s.y ∧
    (clockLoop n s).sp = s.sp ∧ (clockLoop n s).f = s.f ∧ (clockLoop n s).pc = s.pc ∧
    (clockLoop n s).np = s.np ∧ (clockLoop n s).nextPc = s.nextPc ∧ (clockLoop n s).mem = s.mem ∧
    (clockLoop n s).rom = s.rom ∧ (clockLoop n s).ptReload = s.ptReload ∧ (clockLoop n s).ptData = s.ptData ∧
    (clockLoop n s).ptEnabled = s.ptEnabled ∧ (clockLoop n s).ptStamp = s.ptStamp ∧
    (clockLoop n s).ticks = s.ticks ∧ (clockLoop n s).k0 = s.k0 ∧ (clockLoop n s).k1 = s.k1 ∧
    (clockLoop n s).callDepth = s.callDepth ∧ (clockLoop n s).run = s.run ∧
    (clockLoop n s).breakpoints = s.breakpoints ∧ (clockLoop n s).params = s.params ∧
    (clockLoop n s).outputs = s.outputs ∧ (clockLoop n s).stop = s.stop ∧ (clockLoop n s).flagC = s.flagC ∧
    (clockLoop n s).flagZ = s.flagZ ∧ (clockLoop n s).flagD = s.flagD ∧ (clockLoop n s).flagI = s.flagI ∧
    (∀ m, (clockLoop n s).cell m = s.cell m) ∧ (∀ m, (clockLoop n s).romWord m = s.romWord m) ∧
    (∀ m, (clockLoop n s).inRam m = s.inRam m) ∧ (∀ m, (clockLoop n s).inDisplay m = s.inDisplay m) ∧
    (∀ m, (clockLoop n s).inIo m = s.inIo m) ∧ (∀ m, (clockLoop n s).backed m = s.backed m) ∧
    (∀ m, (clockLoop n s).ioAccess m = s.ioAccess m) ∧
    (∀ m, (clockLoop n s).displayAccess m = s.displayAccess m) := by
  induction n generalizing s with
  | zero => simp [clockLoop]
  | succ n ih => simp [clockLoop, ih]

@[simp] theorem serviceClockTimer_keeps (s : State) :
    (serviceClockTimer s).a = s.a ∧ (serviceClockTimer s).b = s.b ∧ (serviceClockTimer s).x = s.x ∧
    (serviceClockTimer s).y = s.y ∧ (serviceClockTimer s).sp = s.sp ∧ (serviceClockTimer s).f = s.f ∧
    (serviceClockTimer s).pc = s.pc ∧ (serviceClockTimer s).np = s.np ∧
    (serviceClockTimer s).nextPc = s.nextPc ∧ (serviceClockTimer s).mem = s.mem ∧
    (serviceClockTimer s).rom = s.rom ∧ (serviceClockTimer s).ptReload = s.ptReload ∧
    (serviceClockTimer s).ptData = s.ptData ∧ (serviceClockTimer s).ptEnabled = s.ptEnabled ∧
    (serviceClockTimer s).ptStamp = s.ptStamp ∧ (serviceClockTimer s).ticks = s.ticks ∧
    (serviceClockTimer s).k0 = s.k0 ∧ (serviceClockTimer s).k1 = s.k1 ∧
    (serviceClockTimer s).callDepth = s.callDepth ∧ (serviceClockTimer s).run = s.run ∧
    (serviceClockTimer s).breakpoints = s.breakpoints ∧ (serviceClockTimer s).params = s.params ∧
    (serviceClockTimer s).outputs = s.outputs ∧ (serviceClockTimer s).stop = s.stop ∧
    (serviceClockTimer s).flagC = s.flagC ∧ (serviceClockTimer s).flagZ = s.flagZ ∧
    (serviceClockTimer s).flagD = s.flagD ∧ (serviceClockTimer s).flagI = s.flagI ∧
    (∀ m, (serviceClockTimer s).cell m = s.cell m) ∧ (∀ m, (serviceClockTimer s).romWord m = s.romWord m) ∧
    (∀ m, (serviceClockTimer s).inRam m = s.inRam m) ∧
    (∀ m, (serviceClockTimer s).inDisplay m = s.inDisplay m) ∧ (∀ m, (serviceClockTimer s).inIo m = s.inIo m) ∧
    (∀ m, (serviceClockTimer s).backed m = s.backed m) ∧
    (∀ m, (serviceClockTimer s).ioAccess m = s.ioAccess m) ∧
    (∀ m, (serviceClockTimer s).displayAccess m = s.displayAccess m) := by
  simp [serviceClockTimer]

@[simp] theorem progPeriodPass_keeps (s : State) :
    (progPeriodPass s).a = s.a ∧ (progPeriodPass s).b = s.b ∧ (progPeriodPass s).x = s.x ∧
    (progPeriodPass s).y = s.y ∧ (progPeriodPass s).sp = s.sp ∧ (progPeriodPass s).f = s.f ∧
    (progPeriodPass s).pc = s.pc ∧ (progPeriodPass s).np = s.np ∧ (progPeriodPass s).nextPc = s.nextPc ∧
    (progPeriodPass s).mem = s.mem ∧ (progPeriodPass s).rom = s.rom ∧ (progPeriodPass s).ptReload = s.ptReload ∧
    (progPeriodPass s).ptEnabled = s.ptEnabled ∧ (progPeriodPass s).clkStamp = s.clkStamp ∧
    (progPeriodPass s).ticks = s.ticks ∧ (progPeriodPass s).k0 = s.k0 ∧ (progPeriodPass s).k1 = s.k1 ∧
    (progPeriodPass s).callDepth = s.callDepth ∧ (progPeriodPass s).run = s.run ∧
    (progPeriodPass s).breakpoints = s.breakpoints ∧ (progPeriodPass s).params = s.params ∧
    (progPeriodPass s).outputs = s.outputs ∧ (progPeriodPass s).stop = s.stop ∧
    (progPeriodPass s).flagC = s.flagC ∧ (progPeriodPass s).flagZ = s.flagZ ∧
    (progPeriodPass s).flagD = s.flagD ∧ (progPeriodPass s).flagI = s.flagI ∧
    (∀ m, (progPeriodPass s).cell m = s.cell m) ∧ (∀ m, (progPeriodPass s).romWord m = s.romWord m) ∧
    (∀ m, (progPeriodPass s).inRam m = s.inRam m) ∧ (∀ m, (progPeriodPass s).inDisplay m = s.inDisplay m) ∧
    (∀ m, (progPeriodPass s).inIo m = s.inIo m) ∧ (∀ m, (progPeriodPass s).backed m = s.backed m) ∧
    (∀ m, (progPeriodPass s).ioAccess m = s.ioAccess m) ∧
    (∀ m, (progPeriodPass s).displayAccess m = s.displayAccess m) := by
  unfold progPeriodPass; dsimp only; split <;> simp

@[simp] theorem progLoop_keeps (n : Nat) (s : State) :
    (progLoop n s).a = s.a ∧ (progLoop n s).b = s.b ∧ (progLoop n s).x = s.x ∧ (progLoop n s).y = s.y ∧
    (progLoop n s).sp = s.sp ∧ (progLoop n s).f = s.f ∧ (progLoop n s).pc = s.pc ∧ (progLoop n s).np = s.np ∧
    (progLoop n s).nextPc = s.nextPc ∧ (progLoop n s).mem = s.mem ∧ (progLoop n s).rom = s.rom ∧
    (progLoop n s).ptReload = s.ptReload ∧ (progLoop n s).ptEnabled = s.ptEnabled ∧
    (progLoop n s).clkStamp = s.clkStamp ∧ (progLoop n s).ticks = s.ticks ∧ (progLoop n s).k0 = s.k0 ∧
    (progLoop n s).k1 = s.k1 ∧ (progLoop n s).callDepth = s.callDepth ∧ (progLoop n s).run = s.run ∧
    (progLoop n s).breakpoints = s.breakpoints ∧ (progLoop n s).params = s.params ∧
    (progLoop n s).outputs = s.outputs ∧ (progLoop n s).stop = s.stop ∧ (progLoop n s).flagC = s.flagC ∧
    (progLoop n s).flagZ = s.flagZ ∧ (progLoop n s).flagD = s.flagD ∧ (progLoop n s).flagI = s.flagI ∧
    (∀ m, (progLoop n s).cell m = s.cell m) ∧ (∀ m, (progLoop n s).romWord m = s.romWord m) ∧
    (∀ m, (progLoop n s).inRam m = s.inRam m) ∧ (∀ m, (progLoop n s).inDisplay m = s.inDisplay m) ∧
    (∀ m, (progLoop n s).inIo m = s.inIo m) ∧ (∀ m, (progLoop n s).backed m = s.backed m) ∧
    (∀ m, (progLoop n s).ioAccess m = s.ioAccess m) ∧ (∀ m, (progLoop n s).displayAccess m = s.displayAccess m) := by
  induction n generalizing s with
  | zero => simp [progLoop]
  | succ n ih => simp [progLoop, ih]

@[simp] theorem serviceProgTimer_keeps (s : State) :
    (serviceProgTimer s).a = s.a ∧ (serviceProgTimer s).b = s.b ∧ (serviceProgTimer s).x = s.x ∧
    (serviceProgTimer s).y = s.y ∧ (serviceProgTimer s).sp = s.sp ∧ (serviceProgTimer s).f = s.f ∧
    (serviceProgTimer s).pc = s.pc ∧ (serviceProgTimer s).np = s.np ∧ (serviceProgTimer s).nextPc = s.nextPc ∧
    (serviceProgTimer s).mem = s.mem ∧ (serviceProgTimer s).rom = s.rom ∧
    (serviceProgTimer s).ptReload = s.ptReload ∧ (serviceProgTimer s).ptEnabled = s.ptEnabled ∧
    (serviceProgTimer s).clkStamp = s.clkStamp ∧ (serviceProgTimer s).ticks = s.ticks ∧
    (serviceProgTimer s).k0 = s.k0 ∧ (serviceProgTimer s).k1 = s.k1 ∧
    (serviceProgTimer s).callDepth = s.callDepth ∧ (serviceProgTimer s).run = s.run ∧
    (serviceProgTimer s).breakpoints = s.breakpoints ∧ (serviceProgTimer s).params = s.params ∧
    (serviceProgTimer s).outputs = s.outputs ∧ (serviceProgTimer s).stop = s.stop ∧
    (serviceProgTimer s).flagC = s.flagC ∧ (serviceProgTimer s).flagZ = s.flagZ ∧
    (serviceProgTimer s).flagD = s.flagD ∧ (serviceProgTimer s).flagI = s.flagI ∧
    (∀ m, (serviceProgTimer s).cell m = s.cell m) ∧ (∀ m, (serviceProgTimer s).romWord m = s.romWord m) ∧
    (∀ m, (serviceProgTimer s).inRam m = s.inRam m) ∧ (∀ m, (serviceProgTimer s).inDisplay m = s.inDisplay m) ∧
    (∀ m, (serviceProgTimer s).inIo m = s.inIo m) ∧ (∀ m, (serviceProgTimer s).backed m = s.backed m) ∧
    (∀ m, (serviceProgTimer s).ioAccess m = s.ioAccess m) ∧
    (∀ m, (serviceProgTimer s).displayAccess m = s.displayAccess m) := by
  unfold serviceProgTimer; split <;> simp

@[simp] theorem serviceTimers_keeps (s : State) :
    (serviceTimers s).a = s.a ∧ (serviceTimers s).b = s.b ∧ (serviceTimers s).x = s.x ∧
    (serviceTimers s).y = s.y ∧ (serviceTimers s).sp = s.sp ∧ (serviceTimers s).f = s.f ∧
    (serviceTimers s).pc = s.pc ∧ (serviceTimers s).np = s.np ∧ (serviceTimers s).nextPc = s.nextPc ∧
    (serviceTimers s).mem = s.mem ∧ (serviceTimers s).rom = s.rom ∧ (serviceTimers s).ptReload = s.ptReload ∧
    (serviceTimers s).ptEnabled = s.ptEnabled ∧ (serviceTimers s).ticks = s.ticks ∧
    (serviceTimers s).k0 = s.k0 ∧ (serviceTimers s).k1 = s.k1 ∧ (serviceTimers s).callDepth = s.callDepth ∧
    (serviceTimers s).run = s.run ∧ (serviceTimers s).breakpoints = s.breakpoints ∧
    (serviceTimers s).params = s.params ∧ (serviceTimers s).outputs = s.outputs ∧
    (serviceTimers s).stop = s.stop ∧ (serviceTimers s).flagC = s.flagC ∧ (serviceTimers s).flagZ = s.flagZ ∧
    (serviceTimers s).flagD = s.flagD ∧ (serviceTimers s).flagI = s.flagI ∧
    (∀ m, (serviceTimers s).cell m = s.cell m) ∧ (∀ m, (serviceTimers s).romWord m = s.romWord m) ∧
    (∀ m, (serviceTimers s).inRam m = s.inRam m) ∧ (∀ m, (serviceTimers s).inDisplay m = s.inDisplay m) ∧
    (∀ m, (serviceTimers s).inIo m = s.inIo m) ∧ (∀ m, (serviceTimers s).backed m = s.backed m) ∧
    (∀ m, (serviceTimers s).ioAccess m = s.ioAccess m) ∧
    (∀ m, (serviceTimers s).displayAccess m = s.displayAccess m) := by
  simp [serviceTimers]

/-! ### The phases of a step -/

@[simp] theorem prepare_keeps (s : State) :
    (prepare s).a = s.a ∧ (prepare s).b = s.b ∧ (prepare s).x = s.x ∧ (prepare s).y = s.y ∧
    (prepare s).sp = s.sp ∧ (prepare s).f = s.f ∧ (prepare s).pc = s.pc ∧ (prepare s).np = s.np ∧
    (prepare s).mem = s.mem ∧ (prepare s).rom = s.rom ∧ (prepare s).slots = s.slots ∧
    (prepare s).ptReload = s.ptReload ∧ (prepare s).ptData = s.ptData ∧ (prepare s).ptEnabled = s.ptEnabled ∧
    (prepare s).ptStamp = s.ptStamp ∧ (prepare s).clkStamp = s.clkStamp ∧ (prepare s).ticks = s.ticks ∧
    (prepare s).k0 = s.k0 ∧ (prepare s).k1 = s.k1 ∧ (prepare s).callDepth = s.callDepth ∧
    (prepare s).run = s.run ∧ (prepare s).breakpoints = s.breakpoints ∧ (prepare s).params = s.params ∧
    (prepare s).outputs = s.outputs ∧ (prepare s).stop = s.stop ∧ (prepare s).flagC = s.flagC ∧
    (prepare s).flagZ = s.flagZ ∧ (prepare s).flagD = s.flagD ∧ (prepare s).flagI = s.flagI ∧
    (∀ m, (prepare s).cell m = s.cell m) ∧ (∀ m, (prepare s).romWord m = s.romWord m) ∧
    (∀ m, (prepare s).inRam m = s.inRam m) ∧ (∀ m, (prepare s).inDisplay m = s.inDisplay m) ∧
    (∀ m, (prepare s).inIo m = s.inIo m) ∧ (∀ m, (prepare s).backed m = s.backed m) ∧
    (∀ m, (prepare s).ioAccess m = s.ioAccess m) ∧ (∀ m, (prepare s).displayAccess m = s.displayAccess m) := by
  simp [prepare]

@[simp] theorem commit_keeps (s : State) (i : Instr) :
    (commit i s).a = s.a ∧ (commit i s).b = s.b ∧ (commit i s).x = s.x ∧ (commit i s).y = s.y ∧
    (commit i s).sp = s.sp ∧ (commit i s).f = s.f ∧ (commit i s).np = s.np ∧ (commit i s).nextPc = s.nextPc ∧
    (commit i s).mem = s.mem ∧ (commit i s).rom = s.rom ∧ (commit i s).slots = s.slots ∧
    (commit i s).ptReload = s.ptReload ∧ (commit i s).ptData = s.ptData ∧ (commit i s).ptEnabled = s.ptEnabled ∧
    (commit i s).ptStamp = s.ptStamp ∧ (commit i s).clkStamp = s.clkStamp ∧ (commit i s).k0 = s.k0 ∧
    (commit i s).k1 = s.k1 ∧ (commit i s).callDepth = s.callDepth ∧ (commit i s).run = s.run ∧
    (commit i s).breakpoints = s.breakpoints ∧ (commit i s).params = s.params ∧
    (commit i s).outputs = s.outputs ∧ (commit i s).stop = s.stop ∧ (commit i s).flagC = s.flagC ∧
    (commit i s).flagZ = s.flagZ ∧ (commit i s).flagD = s.flagD ∧ (commit i s).flagI = s.flagI ∧
    (∀ m, (commit i s).cell m = s.cell m) ∧ (∀ m, (commit i s).romWord m = s.romWord m) ∧
    (∀ m, (commit i s).inRam m = s.inRam m) ∧ (∀ m, (commit i s).inDisplay m = s.inDisplay m) ∧
    (∀ m, (commit i s).inIo m = s.inIo m) ∧ (∀ m, (commit i s).backed m = s.backed m) ∧
    (∀ m, (commit i s).ioAccess m = s.ioAccess m) ∧ (∀ m, (commit i s).displayAccess m = s.displayAccess m) := by
  simp [commit]

@[simp] theorem reloadNp_keeps (s : State) (i : Instr) :
    (reloadNp i s).a = s.a ∧ (reloadNp i s).b = s.b ∧ (reloadNp i s).x = s.x ∧ (reloadNp i s).y = s.y ∧
    (reloadNp i s).sp = s.sp ∧ (reloadNp i s).f = s.f ∧ (reloadNp i s).pc = s.pc ∧
    (reloadNp i s).nextPc = s.nextPc ∧ (reloadNp i s).mem = s.mem ∧ (reloadNp i s).rom = s.rom ∧
    (reloadNp i s).slots = s.slots ∧ (reloadNp i s).ptReload = s.ptReload ∧ (reloadNp i s).ptData = s.ptData ∧
    (reloadNp i s).ptEnabled = s.ptEnabled ∧ (reloadNp i s).ptStamp = s.ptStamp ∧
    (reloadNp i s).clkStamp = s.clkStamp ∧ (reloadNp i s).ticks = s.ticks ∧ (reloadNp i s).k0 = s.k0 ∧
    (reloadNp i s).k1 = s.k1 ∧ (reloadNp i s).callDepth = s.callDepth ∧ (reloadNp i s).run = s.run ∧
    (reloadNp i s).breakpoints = s.breakpoints ∧ (reloadNp i s).params = s.params ∧
    (reloadNp i s).outputs = s.outputs ∧ (reloadNp i s).stop = s.stop ∧ (reloadNp i s).flagC = s.flagC ∧
    (reloadNp i s).flagZ = s.flagZ ∧ (reloadNp i s).flagD = s.flagD ∧ (reloadNp i s).flagI = s.flagI ∧
    (∀ m, (reloadNp i s).cell m = s.cell m) ∧ (∀ m, (reloadNp i s).romWord m = s.romWord m) ∧
    (∀ m, (reloadNp i s).inRam m = s.inRam m) ∧ (∀ m, (reloadNp i s).inDisplay m = s.inDisplay m) ∧
    (∀ m, (reloadNp i s).inIo m = s.inIo m) ∧ (∀ m, (reloadNp i s).backed m = s.backed m) ∧
    (∀ m, (reloadNp i s).ioAccess m = s.ioAccess m) ∧ (∀ m, (reloadNp i s).displayAccess m = s.displayAccess m) := by
  unfold reloadNp; split <;> simp

@[simp] theorem serviceInterrupts_keeps (s : State) (i : Instr) :
    (serviceInterrupts i s).a = s.a ∧ (serviceInterrupts i s).b = s.b ∧ (serviceInterrupts i s).x = s.x ∧
    (serviceInterrupts i s).y = s.y ∧ (serviceInterrupts i s).nextPc = s.nextPc ∧
    (serviceInterrupts i s).rom = s.rom ∧ (serviceInterrupts i s).clkStamp = s.clkStamp ∧
    (serviceInterrupts i s).k0 = s.k0 ∧ (serviceInterrupts i s).k1 = s.k1 ∧
    (serviceInterrupts i s).run = s.run ∧ (serviceInterrupts i s).breakpoints = s.breakpoints ∧
    (serviceInterrupts i s).params = s.params ∧ (serviceInterrupts i s).stop = s.stop ∧
    (∀ m, (serviceInterrupts i s).romWord m = s.romWord m) ∧
    (∀ m, (serviceInterrupts i s).inRam m = s.inRam m) ∧
    (∀ m, (serviceInterrupts i s).inDisplay m = s.inDisplay m) ∧
    (∀ m, (serviceInterrupts i s).inIo m = s.inIo m) ∧ (∀ m, (serviceInterrupts i s).backed m = s.backed m) ∧
    (∀ m, (serviceInterrupts i s).ioAccess m = s.ioAccess m) ∧
    (∀ m, (serviceInterrupts i s).displayAccess m = s.displayAccess m) := by
  unfold serviceInterrupts; split <;> simp

@[simp] theorem endStep_keeps (s : State) :
    (endStep s).a = s.a ∧ (endStep s).b = s.b ∧ (endStep s).x = s.x ∧ (endStep s).y = s.y ∧
    (endStep s).sp = s.sp ∧ (endStep s).f = s.f ∧ (endStep s).pc = s.pc ∧ (endStep s).np = s.np ∧
    (endStep s).mem = s.mem ∧ (endStep s).rom = s.rom ∧ (endStep s).slots = s.slots ∧
    (endStep s).ptReload = s.ptReload ∧ (endStep s).ptData = s.ptData ∧ (endStep s).ptEnabled = s.ptEnabled ∧
    (endStep s).ptStamp = s.ptStamp ∧ (endStep s).clkStamp = s.clkStamp ∧ (endStep s).ticks = s.ticks ∧
    (endStep s).k0 = s.k0 ∧ (endStep s).k1 = s.k1 ∧ (endStep s).callDepth = s.callDepth ∧
    (endStep s).run = s.run ∧ (endStep s).breakpoints = s.breakpoints ∧ (endStep s).params = s.params ∧
    (endStep s).outputs = s.outputs ∧ (endStep s).flagC = s.flagC ∧ (endStep s).flagZ = s.flagZ ∧
    (endStep s).flagD = s.flagD ∧ (endStep s).flagI = s.flagI ∧ (∀ m, (endStep s).cell m = s.cell m) ∧
    (∀ m, (endStep s).romWord m = s.romWord m) ∧ (∀ m, (endStep s).inRam m = s.inRam m) ∧
    (∀ m, (endStep s).inDisplay m = s.inDisplay m) ∧ (∀ m, (endStep s).inIo m = s.inIo m) ∧
    (∀ m, (endStep s).backed m = s.backed m) ∧ (∀ m, (endStep s).ioAccess m = s.ioAccess m) ∧
    (∀ m, (endStep s).displayAccess m = s.displayAccess m) := by
  simp [endStep]

@[simp] theorem endStopped_keeps (s : State) :
    (endStopped s).a = s.a ∧ (endStopped s).b = s.b ∧ (endStopped s).x = s.x ∧ (endStopped s).y = s.y ∧
    (endStopped s).sp = s.sp ∧ (endStopped s).f = s.f ∧ (endStopped s).pc = s.pc ∧ (endStopped s).np = s.np ∧
    (endStopped s).mem = s.mem ∧ (endStopped s).rom = s.rom ∧ (endStopped s).slots = s.slots ∧
    (endStopped s).ptReload = s.ptReload ∧ (endStopped s).ptData = s.ptData ∧
    (endStopped s).ptEnabled = s.ptEnabled ∧ (endStopped s).ptStamp = s.ptStamp ∧
    (endStopped s).clkStamp = s.clkStamp ∧ (endStopped s).ticks = s.ticks ∧ (endStopped s).k0 = s.k0 ∧
    (endStopped s).k1 = s.k1 ∧ (endStopped s).callDepth = s.callDepth ∧ (endStopped s).run = s.run ∧
    (endStopped s).breakpoints = s.breakpoints ∧ (endStopped s).params = s.params ∧
    (endStopped s).outputs = s.outputs ∧ (endStopped s).flagC = s.flagC ∧ (endStopped s).flagZ = s.flagZ ∧
    (endStopped s).flagD = s.flagD ∧ (endStopped s).flagI = s.flagI ∧ (∀ m, (endStopped s).cell m = s.cell m) ∧
    (∀ m, (endStopped s).romWord m = s.romWord m) ∧ (∀ m, (endStopped s).inRam m = s.inRam m) ∧
    (∀ m, (endStopped s).inDisplay m = s.inDisplay m) ∧ (∀ m, (endStopped s).inIo m = s.inIo m) ∧
    (∀ m, (endStopped s).backed m = s.backed m) ∧ (∀ m, (endStopped s).ioAccess m = s.ioAccess m) ∧
    (∀ m, (endStopped s).displayAccess m = s.displayAccess m) := by
  simp [endStopped]

end Sys2Proof.Machine
end

