-- ==== Sys2Proof/Laws/Memory.lean ====
section
/-! SUPPORT. The laws of the sparse storage: a read after a write, and the canonical form is kept. -/

namespace Sys2Proof.Machine

section Sparse

variable {α : Type} [DecidableEq α] (d : Nat → α)

/-- Below every listed address, a list in canonical form holds what an unlisted address holds. -/
theorem sparseRead_below (bound lo a : Nat) (l : List (Nat × α)) (h : sparseWfFrom d bound lo l = true)
    (ha : a < lo) : sparseRead d l a = d a := by
  induction l generalizing lo with
  | nil => rfl
  | cons p l ih =>
    obtain ⟨k, v⟩ := p
    simp only [sparseWfFrom, Bool.and_eq_true, decide_eq_true_eq] at h
    simp only [sparseRead]
    rw [if_neg (by omega)]
    exact ih (k + 1) h.2 (by omega)

/-- The canonical form with a higher floor is the canonical form with a lower one. -/
theorem sparseWfFrom_mono (bound lo lo' : Nat) (l : List (Nat × α)) (hl : lo' ≤ lo)
    (h : sparseWfFrom d bound lo l = true) : sparseWfFrom d bound lo' l = true := by
  cases l with
  | nil => rfl
  | cons p l =>
    obtain ⟨k, v⟩ := p
    simp only [sparseWfFrom, Bool.and_eq_true, decide_eq_true_eq] at h ⊢
    exact ⟨⟨⟨by omega, h.1.1.2⟩, h.1.2⟩, h.2⟩

/-- A write keeps the canonical form. -/
theorem sparseWrite_wf (bound lo a : Nat) (v : α) (l : List (Nat × α)) (hlo : lo ≤ a) (hb : a < bound)
    (h : sparseWfFrom d bound lo l = true) : sparseWfFrom d bound lo (sparseWrite d a v l) = true := by
  induction l generalizing lo with
  | nil =>
    simp only [sparseWrite]
    split <;> simp_all [sparseWfFrom]
  | cons p l ih =>
    obtain ⟨k, u⟩ := p
    have h' := h
    simp only [sparseWfFrom, Bool.and_eq_true, decide_eq_true_eq] at h
    obtain ⟨⟨⟨h1, h2⟩, h3⟩, h4⟩ := h
    simp only [sparseWrite]
    split
    · split
      · exact h'
      · simp only [sparseWfFrom, Bool.and_eq_true, decide_eq_true_eq]
        exact ⟨⟨⟨hlo, hb⟩, by assumption⟩, ⟨⟨by omega, h2⟩, h3⟩, h4⟩
    · split
      · split
        · exact sparseWfFrom_mono d bound (k + 1) lo l (by omega) h4
        · subst_vars
          simp only [sparseWfFrom, Bool.and_eq_true, decide_eq_true_eq]
          exact ⟨⟨⟨h1, h2⟩, by assumption⟩, h4⟩
      · simp only [sparseWfFrom, Bool.and_eq_true, decide_eq_true_eq]
        exact ⟨⟨⟨h1, h2⟩, h3⟩, ih (k + 1) (by omega) h4⟩

/-- A read of another address after a write reads as before. -/
theorem sparseRead_write_other (a b : Nat) (v : α) (l : List (Nat × α)) (hab : b ≠ a) :
    sparseRead d (sparseWrite d a v l) b = sparseRead d l b := by
  induction l with
  | nil =>
    simp only [sparseWrite]
    split
    · rfl
    · simp [sparseRead, Ne.symm hab]
  | cons p l ih =>
    obtain ⟨k, u⟩ := p
    simp only [sparseWrite]
    split
    · split <;> simp [sparseRead, Ne.symm hab]
    · split
      · subst_vars
        split <;> simp [sparseRead, Ne.symm hab]
      · simp only [sparseRead, ih]

/-- A read of the address just written gives the value written. -/
theorem sparseRead_write_same (bound lo a : Nat) (v : α) (l : List (Nat × α))
    (h : sparseWfFrom d bound lo l = true) : sparseRead d (sparseWrite d a v l) a = v := by
  induction l generalizing lo with
  | nil =>
    simp only [sparseWrite]
    split <;> simp_all [sparseRead]
  | cons p l ih =>
    obtain ⟨k, u⟩ := p
    simp only [sparseWfFrom, Bool.and_eq_true, decide_eq_true_eq] at h
    obtain ⟨⟨⟨h1, h2⟩, h3⟩, h4⟩ := h
    simp only [sparseWrite]
    split
    · split
      · subst_vars
        simp only [sparseRead]
        rw [if_neg (by omega)]
        exact sparseRead_below d bound (k + 1) a l h4 (by omega)
      · simp [sparseRead]
    · split
      · subst_vars
        split
        · subst_vars
          exact sparseRead_below d bound (k + 1) k l h4 (by omega)
        · simp [sparseRead]
      · simp only [sparseRead]
        rw [if_neg (by omega)]
        exact ih (k + 1) h4

/-- An address a write lists is the one written, or was listed before. -/
theorem sparseWrite_mem (a : Nat) (v : α) (l : List (Nat × α)) (p : Nat × α)
    (h : p ∈ sparseWrite d a v l) : p = (a, v) ∨ p ∈ l := by
  induction l with
  | nil =>
    simp only [sparseWrite] at h
    split at h
    · exact .inr h
    · exact .inl (List.mem_singleton.mp h)
  | cons q l ih =>
    obtain ⟨k, u⟩ := q
    simp only [sparseWrite] at h
    split at h
    · split at h
      · exact .inr h
      · rcases List.mem_cons.mp h with h | h
        · exact .inl h
        · exact .inr h
    · split at h
      · split at h
        · exact .inr (List.mem_cons_of_mem _ h)
        · rcases List.mem_cons.mp h with h | h
          · exact .inl h
          · exact .inr (List.mem_cons_of_mem _ h)
      · rcases List.mem_cons.mp h with h | h
        · exact .inr (h ▸ List.mem_cons_self)
        · rcases ih h with h | h
          · exact .inl h
          · exact .inr (List.mem_cons_of_mem _ h)

end Sparse

/-! ### Cells and ROM words -/

/-- A cell write keeps the canonical form of the data cells. -/
theorem setCell_wf (s : State) (a : DataAddr) (v : Nibble) (h : Memory.wf s.mem = true) :
    Memory.wf (s.setCell a v).mem = true :=
  sparseWrite_wf resetCell 4096 0 a.toNat v s.mem (Nat.zero_le _) a.isLt h

/-- A ROM load of one word keeps the canonical form of the ROM. -/
theorem setRomWord_wf (s : State) (a : CodeAddr) (w : InstrWord) (h : Rom.wf s.rom = true) :
    Rom.wf (s.setRomWord a w).rom = true :=
  sparseWrite_wf blankRomWord 8192 0 a.toNat w s.rom (Nat.zero_le _) a.isLt h

/-- A cell reads as what was just written to it. -/
theorem cell_setCell_same (s : State) (a : DataAddr) (v : Nibble) (h : Memory.wf s.mem = true) :
    (s.setCell a v).cell a = v :=
  sparseRead_write_same resetCell 4096 0 a.toNat v s.mem h

/-- A cell write leaves every other cell alone. -/
theorem cell_setCell_other (s : State) (a b : DataAddr) (v : Nibble) (h : b ≠ a) :
    (s.setCell a v).cell b = s.cell b :=
  sparseRead_write_other resetCell a.toNat b.toNat v s.mem (fun e => h (BitVec.eq_of_toNat_eq e))

/-- A ROM address reads as the word just loaded there. -/
theorem romWord_setRomWord_same (s : State) (a : CodeAddr) (w : InstrWord) (h : Rom.wf s.rom = true) :
    (s.setRomWord a w).romWord a = w :=
  sparseRead_write_same blankRomWord 8192 0 a.toNat w s.rom h

end Sys2Proof.Machine
end

