-- ==== Sys2Proof/Laws/Ops.lean ====
section
/-! SUPPORT. What the shared operations over memory, the stack, the operands and the interrupt slots do, one lemma each;
what they leave alone is in Frames.lean. -/

namespace Sys2Proof.Machine

/-! ### One access -/

/-- What a read gives (R43): the register's value for an I/O access, the cell for any other backed address, 0 in a hole. -/
theorem memRead_value (a : DataAddr) (s : State) :
    (memRead a s).1 = if s.ioAccess a then ioValue a s else if s.backed a then s.cell a else 0 := by
  unfold memRead State.ioAccess State.backed ioRead
  cases s.inRam a <;> cases s.inDisplay a <;> cases s.inIo a <;> rfl

/-- What a read does (R43, R48): nothing, but for the side effect of an I/O register. -/
theorem memRead_state (a : DataAddr) (s : State) :
    (memRead a s).2 = if s.ioAccess a then ioReadEffect a s else s := by
  unfold memRead State.ioAccess ioRead
  cases s.inRam a <;> cases s.inDisplay a <;> cases s.inIo a <;> rfl

/-- A read that is no I/O access changes nothing. -/
theorem memRead_state_plain (a : DataAddr) (s : State) (h : s.ioAccess a = false) : (memRead a s).2 = s := by
  rw [memRead_state, h]; rfl

/-- A read of a cell that is no I/O access gives the cell. -/
theorem memRead_value_plain (a : DataAddr) (s : State) (h : s.ioAccess a = false) (hb : s.backed a = true) :
    (memRead a s).1 = s.cell a := by
  rw [memRead_value, h, hb]; rfl

/-- A write to a hole is dropped (R42). -/
theorem memWrite_hole (a : DataAddr) (n : Nibble) (s : State) (h : s.backed a = false) : memWrite a n s = s := by
  unfold State.backed at h
  simp only [Bool.or_eq_false_iff] at h
  simp [memWrite, h.1.1, h.1.2, h.2]

/-- The cells after a write (R44): stored where there is a cell, dropped in a hole. -/
theorem memWrite_mem (a : DataAddr) (n : Nibble) (s : State) :
    (memWrite a n s).mem = if s.backed a then (s.setCell a n).mem else s.mem := by
  unfold memWrite State.backed
  cases s.inRam a <;> cases s.inDisplay a <;> cases s.inIo a <;>
    simp [State.emit, ioWrite] <;> split <;> simp [State.setMask, writePtControl, State.emit] <;> (repeat' split) <;> rfl

/-- A written cell holds the value, whatever its range. -/
theorem memWrite_cell_same (a : DataAddr) (n : Nibble) (s : State) (hw : Memory.wf s.mem = true)
    (hb : s.backed a = true) : (memWrite a n s).cell a = n := by
  have h := memWrite_mem a n s
  rw [hb] at h
  have := cell_setCell_same s a n hw
  simp only [State.cell] at this ⊢
  rw [h]; exact this

/-- A write leaves every other cell alone. -/
theorem memWrite_cell_other (a k : DataAddr) (n : Nibble) (s : State) (hk : k ≠ a) :
    (memWrite a n s).cell k = s.cell k := by
  have h := memWrite_mem a n s
  have h2 := cell_setCell_other s a k n hk
  simp only [State.cell] at h2 ⊢
  rw [h]; split
  · exact h2
  · rfl

/-- A write keeps the canonical form. -/
theorem memWrite_wf (a : DataAddr) (n : Nibble) (s : State) (hw : Memory.wf s.mem = true) :
    Memory.wf (memWrite a n s).mem = true := by
  rw [memWrite_mem]; split
  · exact setCell_wf s a n hw
  · exact hw

/-- Only cells of the four ranges are listed after a write when that was so before (R17). -/
theorem memWrite_backed (a : DataAddr) (n : Nibble) (s : State)
    (h : ∀ p ∈ s.mem, s.backed (BitVec.ofNat 12 p.1) = true) :
    ∀ p ∈ (memWrite a n s).mem, (memWrite a n s).backed (BitVec.ofNat 12 p.1) = true := by
  intro p hp
  have hk : ∀ m, (memWrite a n s).backed m = s.backed m := by simp
  rw [memWrite_mem] at hp
  rw [hk]
  split at hp
  · rename_i hb
    rcases sparseWrite_mem resetCell a.toNat n s.mem p hp with e | hm
    · subst e; simpa using hb
    · exact h p hm
  · exact h p hp

/-- A write that is no I/O access leaves the devices alone. -/
theorem memWrite_devices (a : DataAddr) (n : Nibble) (s : State) (h : s.ioAccess a = false) :
    (memWrite a n s).slots = s.slots ∧ (memWrite a n s).ptReload = s.ptReload ∧ (memWrite a n s).ptData = s.ptData ∧
      (memWrite a n s).ptEnabled = s.ptEnabled ∧ (memWrite a n s).ptStamp = s.ptStamp := by
  unfold State.ioAccess at h
  unfold memWrite
  revert h
  cases s.inRam a <;> cases s.inDisplay a <;> cases s.inIo a <;> simp

/-- A write that is neither a display nor an I/O access emits nothing. -/
theorem memWrite_outputs (a : DataAddr) (n : Nibble) (s : State) (h : s.ioAccess a = false)
    (hd : s.displayAccess a = false) : (memWrite a n s).outputs = s.outputs := by
  unfold State.ioAccess at h
  unfold State.displayAccess at hd
  unfold memWrite
  revert h hd
  cases s.inRam a <;> cases s.inDisplay a <;> cases s.inIo a <;> simp

/-! ### Operands -/

/-- A register operand is read without an effect; a memory operand is one access (R13). -/
theorem readReg_mem (r : Reg) (s : State) : (readReg r s).2.mem = s.mem := by simp

/-- An operand write keeps the canonical form. -/
theorem writeReg_wf (r : Reg) (n : Nibble) (s : State) (hw : Memory.wf s.mem = true) :
    Memory.wf (writeReg r n s).mem = true := by
  cases r <;> simp [writeReg, hw, memWrite_wf]

/-! ### The slots -/

/-- What raising an interrupt does to its slot (R304). -/
theorem generateInterrupt_get (i : SlotId) (b : BitVec 2) (s : State) :
    (generateInterrupt i b s).slots.get i =
      { s.slots.get i with
        factor := (s.slots.get i).factor ||| (1#4 <<< b.toNat)
        triggered := (s.slots.get i).triggered || (s.slots.get i).mask.getLsbD b.toNat } := by
  unfold generateInterrupt
  cases h : (s.slots.get i).mask.getLsbD b.toNat <;> simp [State.setFactor, State.setTriggered, h]

/-- Raising an interrupt leaves the other slots alone (R304). -/
theorem generateInterrupt_get_other (i j : SlotId) (b : BitVec 2) (s : State) (h : j ≠ i) :
    (generateInterrupt i b s).slots.get j = s.slots.get j := by
  unfold generateInterrupt
  cases (s.slots.get i).mask.getLsbD b.toNat <;>
    simp [State.setFactor, State.setTriggered, Slots.get_set_other, h]

/-- Each slot after the read of a register: the factor of the register's own slot may be cleared, nothing else (R310). -/
theorem ioReadEffect_slot (a : DataAddr) (s : State) (j : SlotId) :
    (ioReadEffect a s).slots.get j =
      if ioReg a = .factorFlags j then { s.slots.get j with factor := 0 } else s.slots.get j := by
  unfold ioReadEffect
  split
  · rename_i i h
    by_cases hj : j = i
    · subst hj; simp [State.setFactor, h]
    · have : ¬ (IoReg.factorFlags i = IoReg.factorFlags j) := by
        intro e; injection e with e; exact hj e.symm
      simp [State.setFactor, h, Slots.get_set_other, hj, this]
  · rename_i h
    have : ¬ (ioReg a = IoReg.factorFlags j) := fun e => h j e
    simp [this]

/-- Each slot after the write of a register: its mask may be replaced, nothing else (R312). -/
theorem ioWrite_slot (a : DataAddr) (n : Nibble) (s : State) (j : SlotId) :
    (ioWrite a n s).slots.get j = s.slots.get j ∨
      (j ≠ .k0Pins ∧ (ioWrite a n s).slots.get j = { s.slots.get j with mask := n }) := by
  unfold ioWrite
  split <;> try (left; simp; done)
  · rename_i i h
    by_cases hj : j = maskWriteSlot i
    · right
      refine ⟨?_, ?_⟩
      · subst hj; cases i <;> decide
      · subst hj; simp [State.setMask]
    · left; simp [State.setMask, Slots.get_set_other, hj]

end Sys2Proof.Machine
end

