-- ==== Sys2Proof/Laws/Operands.lean ====
section
/-! SUPPORT. What the operand forms and the stack do, in the terms of Safety.lean. -/

namespace Sys2Proof.Machine

/-- The flags are a view of `F` alone (R14). -/
theorem flags_of_f (s t : State) (h : t.f = s.f) : t.flagC = s.flagC ∧ t.flagZ = s.flagZ ∧ t.flagD = s.flagD ∧
    t.flagI = s.flagI := by
  simp only [State.flagC, State.flagZ, State.flagD, State.flagI, h, and_self]

/-- A cell that is written has received the value (R44). -/
theorem cellReceives_memWrite (a : DataAddr) (v : Nibble) (s t : State) (hw : Memory.wf s.mem = true)
    (hm : t.mem = s.mem) (hp : t.params = s.params) : cellReceives a v s (memWrite a v t) := by
  have hb : t.backed a = s.backed a := by
    simp [State.backed, State.inRam, State.inDisplay, State.inIo, hp]
  unfold cellReceives
  split
  · rename_i h
    exact memWrite_cell_same a v t (by rw [hm]; exact hw) (by rw [hb]; exact h)
  · rename_i h
    have h : t.backed a = false := by rw [hb]; simpa using h
    rw [memWrite_hole a v t h, hm]

/-- What a cell has received does not depend on the rest of the state. -/
theorem cellReceives_congr (a : DataAddr) (v : Nibble) (s t u : State) (h : cellReceives a v s t) (hm : u.mem = t.mem) :
    cellReceives a v s u := by
  unfold cellReceives State.cell at *
  rw [hm]; exact h

/-- An operand that is written has received the value (R13). -/
theorem regReceives_writeReg (r : Reg) (v : Nibble) (s t : State) (hw : Memory.wf s.mem = true) (hm : t.mem = s.mem)
    (hp : t.params = s.params) (hx : t.x = s.x) (hy : t.y = s.y) : regReceives r v s (writeReg r v t) := by
  cases r
  · simp [regReceives, writeReg]
  · simp [regReceives, writeReg]
  · simpa [regReceives, writeReg, hx] using cellReceives_memWrite s.x v s t hw hm hp
  · simpa [regReceives, writeReg, hy] using cellReceives_memWrite s.y v s t hw hm hp

/-- What an operand has received does not depend on the rest of the state. -/
theorem regReceives_congr (r : Reg) (v : Nibble) (s t u : State) (h : regReceives r v s t) (ha : u.a = t.a)
    (hb : u.b = t.b) (hm : u.mem = t.mem) : regReceives r v s u := by
  cases r
  · simpa [regReceives, ha] using h
  · simpa [regReceives, hb] using h
  · exact cellReceives_congr _ _ _ _ _ h hm
  · exact cellReceives_congr _ _ _ _ _ h hm

/-- The adder meets its specification (R260). -/
theorem add4_sumIs (a b : Nibble) (cin dec : Bool) : SumIs a b cin dec (add4 a b cin dec).1 (add4 a b cin dec).2 := by
  cases dec
  · exact add4_binary a b cin
  · exact add4_decimal a b cin

/-- The subtractor meets its specification (R261). -/
theorem sub4_differenceIs (a b : Nibble) (bin dec : Bool) :
    DifferenceIs a b bin dec (sub4 a b bin dec).1 (sub4 a b bin dec).2 := by
  refine ⟨sub4_borrow a b bin dec, ?_⟩
  split
  · rename_i h; exact sub4_corrected a b bin dec h
  · rename_i h; exact sub4_exact a b bin dec (by simpa using h)

/-- Storing an arithmetic result and its flags (R230 to R236). -/
theorem storesWithCZ_of (r : Reg) (v : Nibble × Bool) (s t : State) (hw : Memory.wf s.mem = true) (hm : t.mem = s.mem)
    (hp : t.params = s.params) (hx : t.x = s.x) (hy : t.y = s.y) (hf : t.f = s.f) :
    StoresWithCZ r v.1 v.2 s ((writeReg r v.1 t).setArithFlags v) := by
  refine ⟨regReceives_congr _ _ _ _ _ (regReceives_writeReg r v.1 s t hw hm hp hx hy) ?_ ?_ ?_, ?_, ?_, ?_, ?_⟩
  · simp
  · simp
  · simp
  · simp [State.setArithFlags]
  · simp [State.setArithFlags]
  · simp [State.setArithFlags, (flags_of_f s t hf).2.2.1]
  · simp [State.setArithFlags, (flags_of_f s t hf).2.2.2]

/-- Storing a logic result and its flag (R237 to R242, R255). -/
theorem storesWithZ_of (r : Reg) (v : Nibble) (s t : State) (hw : Memory.wf s.mem = true) (hm : t.mem = s.mem)
    (hp : t.params = s.params) (hx : t.x = s.x) (hy : t.y = s.y) (hf : t.f = s.f) :
    StoresWithZ r v s ((writeReg r v t).setLogicFlag v) := by
  refine ⟨regReceives_congr _ _ _ _ _ (regReceives_writeReg r v s t hw hm hp hx hy) ?_ ?_ ?_, ?_, ?_, ?_, ?_⟩
  · simp
  · simp
  · simp
  · simp [State.setLogicFlag]
  · simp [State.setLogicFlag, (flags_of_f s t hf).1]
  · simp [State.setLogicFlag, (flags_of_f s t hf).2.2.1]
  · simp [State.setLogicFlag, (flags_of_f s t hf).2.2.2]

/-- Storing a rotated operand and its carry (R247, R248). -/
theorem storesWithC_of (r : Reg) (v : Nibble) (c : Bool) (s t : State) (hw : Memory.wf s.mem = true) (hm : t.mem = s.mem)
    (hp : t.params = s.params) (hx : t.x = s.x) (hy : t.y = s.y) (hf : t.f = s.f) :
    StoresWithC r v c s ((writeReg r v t).setC c) := by
  refine ⟨regReceives_congr _ _ _ _ _ (regReceives_writeReg r v s t hw hm hp hx hy) ?_ ?_ ?_, ?_, ?_, ?_, ?_⟩
  · simp
  · simp
  · simp
  · simp
  · simp [(flags_of_f s t hf).2.1]
  · simp [(flags_of_f s t hf).2.2.1]
  · simp [(flags_of_f s t hf).2.2.2]

/-- The flags of a comparison (R243). -/
theorem flagsCompare_of (a b : Nibble) (s t : State) (hf : t.f = s.f) : FlagsCompare a b s (t.setCompareFlags a b) := by
  refine ⟨?_, ?_, ?_, ?_⟩
  · simp [State.setCompareFlags]
  · simp [State.setCompareFlags]
  · simp [State.setCompareFlags, (flags_of_f s t hf).2.2.1]
  · simp [State.setCompareFlags, (flags_of_f s t hf).2.2.2]

/-- The flag of a test (R245). -/
theorem flagsTest_of (v : Nibble) (s t : State) (hf : t.f = s.f) : FlagsTest v s (t.setLogicFlag v) := by
  refine ⟨?_, ?_, ?_, ?_⟩
  · simp [State.setLogicFlag]
  · simp [State.setLogicFlag, (flags_of_f s t hf).1]
  · simp [State.setLogicFlag, (flags_of_f s t hf).2.2.1]
  · simp [State.setLogicFlag, (flags_of_f s t hf).2.2.2]

/-- An index register put together from three nibbles (R11). -/
theorem indexIs_ofNibbles (p h l : Nibble) : IndexIs (idxOfNibbles p h l) p h l := by
  have := idx_parts (idxOfNibbles p h l)
  simpa [IndexIs] using this

/-- A post-increment advances an index register (R11). -/
theorem indexAdvanced_idxAdd (v : DataAddr) (n : Octet) : IndexAdvanced v (idxAdd v n) n.toNat := idxAdd_toNat v n

/-- The cell after the one at an index register is another cell. -/
theorem idxAdd_one_ne (v : DataAddr) : idxAdd v 1 ≠ v := by
  intro e
  have := (idxAdd_toNat v 1).2
  rw [e] at this
  have h1 : (1 : Octet).toNat = 1 := rfl
  rw [h1] at this
  omega

/-- Two cells at `X` after a pair store (R111, R170). -/
theorem pairStored_of (l : Octet) (s t : State) (hw : Memory.wf s.mem = true) (hm : t.mem = s.mem)
    (hp : t.params = s.params) (hx : t.x = s.x) : PairStored l s (storePairAtX l t) := by
  have hb : ∀ k, t.backed k = s.backed k := fun k => by
    simp [State.backed, State.inRam, State.inDisplay, State.inIo, hp]
  have hwt : Memory.wf t.mem = true := by rw [hm]; exact hw
  refine ⟨fun h => ?_, fun h => ?_, ?_⟩
  · have h1 := memWrite_cell_same t.x (l.extractLsb' 0 4) t hwt (by rw [hb, hx]; exact h)
    have h2 := memWrite_cell_other (idxAdd t.x 1) t.x (l.extractLsb' 4 4) (memWrite t.x (l.extractLsb' 0 4) t)
      (idxAdd_one_ne t.x).symm
    simp only [storePairAtX, State.bumpIdx, State.setIdx, State.setX_views, memWrite_keeps]
    rw [← hx, h2, h1]
  · have hb1 : (memWrite t.x (l.extractLsb' 0 4) t).backed (idxAdd t.x 1) = true := by
      simp only [memWrite_keeps, hb, hx]; exact h
    have h1 := memWrite_cell_same (idxAdd t.x 1) (l.extractLsb' 4 4) (memWrite t.x (l.extractLsb' 0 4) t)
      (memWrite_wf _ _ _ hwt) hb1
    simp only [storePairAtX, State.bumpIdx, State.setIdx, State.setX_views, memWrite_keeps]
    rw [← hx]; exact h1
  · simp only [storePairAtX, State.bumpIdx, State.setIdx, State.setX_x, State.idx, memWrite_keeps, hx]
    exact indexAdvanced_idxAdd s.x 2

end Sys2Proof.Machine
end

