-- ==== Sys2Proof/Laws/Stack.lean ====
section
/-! SUPPORT. The program counter in numbers, and the return-address frame on the stack (spec/41_branch.md R112). -/

namespace Sys2Proof.Machine

/-! ### The program counter as a number -/

theorem codeAddrOfNp_toNat (np : BankPage) (d : Octet) : (codeAddrOfNp np d).toNat = 256 * np.toNat + d.toNat := by
  have h1 := np.isLt
  have h2 := d.isLt
  simp only [codeAddrOfNp, BitVec.toNat_append]
  rw [← Nat.shiftLeft_add_eq_or_of_lt h2, Nat.shiftLeft_eq]; omega

theorem append_nibbles_toNat (b a : Nibble) : (b ++ a : Octet).toNat = 16 * b.toNat + a.toNat := by
  revert b a; decide

theorem bank_append_toNat (b : BitVec 1) (p : Nibble) : (b ++ p : BankPage).toNat = 16 * b.toNat + p.toNat := by
  revert b p; decide

theorem codeAddrOf_toNat (b : BitVec 1) (p : Nibble) (s : Octet) :
    (codeAddrOf b p s).toNat = 4096 * b.toNat + 256 * p.toNat + s.toNat := by
  have h1 : (codeAddrOf b p s) = codeAddrOfNp (b ++ p) s := rfl
  rw [h1, codeAddrOfNp_toNat, bank_append_toNat]; omega

theorem pcBank_toNat (v : CodeAddr) : (pcBank v).toNat = v.toNat / 4096 := by
  have := v.isLt
  simp only [pcBank, BitVec.extractLsb'_toNat, Nat.shiftRight_eq_div_pow]; omega

theorem pcBankPage_toNat (v : CodeAddr) : (pcBankPage v).toNat = v.toNat / 256 := by
  have := v.isLt
  simp only [pcBankPage, BitVec.extractLsb'_toNat, Nat.shiftRight_eq_div_pow]; omega

theorem npPage_toNat (v : BankPage) : (npPage v).toNat = v.toNat % 16 := by
  revert v; decide

theorem npBank_toNat (v : BankPage) : (npBank v).toNat = v.toNat / 16 := by
  revert v; decide

/-! ### The frame -/

/-- The cells `SP + j` and `SP + k` of a frame are different cells, in either stack mode. -/
theorem frameAddr_ne (w : Bool) (sp : Octet) (j k : Int) (hj : -3 ≤ j) (hj' : j ≤ 2) (hk : -3 ≤ k) (hk' : k ≤ 2)
    (h : j ≠ k) (a b : DataAddr) (ha : frameAddr w sp j = some a) (hb : frameAddr w sp k = some b) : a ≠ b := by
  have hsp := sp.isLt
  intro e; subst e
  cases w
  · simp only [frameAddr, Bool.false_eq_true, if_false] at ha hb
    split at ha
    · cases ha
    · split at hb
      · cases hb
      · have := congrArg (fun o : Option DataAddr => o.map BitVec.toNat) (ha.trans hb.symm)
        simp only [Option.map_some, Option.some.injEq, BitVec.toNat_ofInt] at this
        omega
  · simp only [frameAddr, if_true] at ha hb
    have := congrArg (fun o : Option DataAddr => o.map BitVec.toNat) (ha.trans hb.symm)
    simp only [Option.map_some, Option.some.injEq, stackAddr, BitVec.toNat_setWidth, BitVec.toNat_add,
      BitVec.toNat_ofInt] at this
    omega

theorem frameWrite_cell_same (o : Option DataAddr) (k : DataAddr) (v : Nibble) (s : State)
    (hw : Memory.wf s.mem = true) (ho : o = some k) (hb : s.backed k = true) : (frameWrite o v s).cell k = v := by
  subst ho; exact memWrite_cell_same k v s hw hb

theorem frameWrite_cell_other (o : Option DataAddr) (k : DataAddr) (v : Nibble) (s : State)
    (h : ∀ a, o = some a → k ≠ a) : (frameWrite o v s).cell k = s.cell k := by
  cases o with
  | none => rfl
  | some a => exact memWrite_cell_other a k v s (h a rfl)

theorem frameWrite_wf (o : Option DataAddr) (v : Nibble) (s : State) (hw : Memory.wf s.mem = true) :
    Memory.wf (frameWrite o v s).mem = true := by
  cases o with
  | none => exact hw
  | some a => exact memWrite_wf a v s hw

/-- Everything `PushPC` stores: the three nibbles of the return address, each in its frame cell (R112). -/
theorem pushPC_holds (ra : CodeAddr) (s : State) (hw : Memory.wf s.mem = true) : FrameHolds ra s (pushPC ra s) := by
  have ne : ∀ j k : Int, -3 ≤ j → j ≤ 2 → -3 ≤ k → k ≤ 2 → j ≠ k → ∀ a b, _ → _ → a ≠ b :=
    fun j k h1 h2 h3 h4 h5 a b => frameAddr_ne s.params.stackWrap s.sp j k h1 h2 h3 h4 h5 a b
  have n12 := ne (-1) (-2) (by omega) (by omega) (by omega) (by omega) (by omega)
  have n13 := ne (-1) (-3) (by omega) (by omega) (by omega) (by omega) (by omega)
  have n23 := ne (-2) (-3) (by omega) (by omega) (by omega) (by omega) (by omega)
  refine ⟨?_, ?_, ?_⟩
  · intro k hk hb
    simp only [pushPC, State.setSp_views]
    rw [frameWrite_cell_other _ _ _ _ (fun a ha => n13 k a hk ha),
      frameWrite_cell_other _ _ _ _ (fun a ha => n12 k a hk ha), frameWrite_cell_same _ k _ _ hw hk hb]
  · intro k hk hb
    simp only [pushPC, State.setSp_views]
    rw [frameWrite_cell_other _ _ _ _ (fun a ha => n23 k a hk ha),
      frameWrite_cell_same _ k _ _ (frameWrite_wf _ _ _ hw) hk (by simpa using hb)]
  · intro k hk hb
    simp only [pushPC, State.setSp_views]
    rw [frameWrite_cell_same _ k _ _ (frameWrite_wf _ _ _ (frameWrite_wf _ _ _ hw)) hk (by simpa using hb)]

theorem pushPC_sp (ra : CodeAddr) (s : State) : (pushPC ra s).sp = s.sp - 3 := by simp [pushPC]

theorem popPC_sp (s : State) : (popPC s).2.sp = s.sp + 3 := by simp [popPC]

/-- The address `PopPC` gives: the bank of `PC` and the three nibbles of the frame (R112). -/
theorem popPC_toNat (s : State) : (popPC s).1.toNat = poppedNumber s := by
  simp only [popPC, codeAddrOf_toNat, pcBank_toNat, append_nibbles_toNat, poppedNumber, poppedNibbles]; omega

/-- What a frame holds looks at the memory alone. -/
theorem frameHolds_congr (ra : CodeAddr) (s t u : State) (h : FrameHolds ra s t) (hm : u.mem = t.mem) :
    FrameHolds ra s u := by
  unfold FrameHolds State.cell at *; rw [hm]; exact h

end Sys2Proof.Machine
end

