-- ==== Sys2Proof/Laws/Accesses.lean ====
section
/-! SUPPORT. The side of the state that data accesses read and write, apart from the registers: an access to it is the same whatever
the registers hold (spec/20_memory.md R43, R44). Proofs about the accesses of an instruction work on this side alone. -/

namespace Sys2Proof.Machine

/-- The cells, the device registers, the outputs, and what decides how an access to them goes; all else as at reset. -/
def State.dataSide (s : State) : State :=
  { State.reset with
    mem := s.mem, slots := s.slots, ptReload := s.ptReload, ptData := s.ptData, ptEnabled := s.ptEnabled
    ptStamp := s.ptStamp, outputs := s.outputs, params := s.params, ticks := s.ticks }

/-- Two states with the same data side have the same cells, the same device registers and the same outputs. -/
theorem same_of_dataSide (s t : State) (h : t.dataSide = s.dataSide) :
    t.mem = s.mem ∧ SameDevices s t ∧ t.outputs = s.outputs := by
  simp only [State.dataSide, State.mk.injEq, true_and, and_true] at h
  obtain ⟨hm, hs, h1, h2, h3, h4, -, -, ho⟩ := h
  exact ⟨hm, ⟨hs, h1, h2, h3, h4⟩, ho⟩

/-! ### Updates of registers leave it alone -/

@[simp] theorem dataSide_setA (s : State) (v : Nibble) : (s.setA v).dataSide = s.dataSide := rfl
@[simp] theorem dataSide_setB (s : State) (v : Nibble) : (s.setB v).dataSide = s.dataSide := rfl
@[simp] theorem dataSide_setX (s : State) (v : DataAddr) : (s.setX v).dataSide = s.dataSide := rfl
@[simp] theorem dataSide_setY (s : State) (v : DataAddr) : (s.setY v).dataSide = s.dataSide := rfl
@[simp] theorem dataSide_setSp (s : State) (v : Octet) : (s.setSp v).dataSide = s.dataSide := rfl
@[simp] theorem dataSide_setF (s : State) (v : Nibble) : (s.setF v).dataSide = s.dataSide := rfl
@[simp] theorem dataSide_setNp (s : State) (v : BankPage) : (s.setNp v).dataSide = s.dataSide := rfl
@[simp] theorem dataSide_setNextPc (s : State) (v : CodeAddr) : (s.setNextPc v).dataSide = s.dataSide := rfl
@[simp] theorem dataSide_setC (s : State) (v : Bool) : (s.setC v).dataSide = s.dataSide := rfl
@[simp] theorem dataSide_setZ (s : State) (v : Bool) : (s.setZ v).dataSide = s.dataSide := rfl
@[simp] theorem dataSide_setD (s : State) (v : Bool) : (s.setD v).dataSide = s.dataSide := rfl
@[simp] theorem dataSide_setI (s : State) (v : Bool) : (s.setI v).dataSide = s.dataSide := rfl
@[simp] theorem dataSide_setArithFlags (s : State) (v : Nibble × Bool) : (s.setArithFlags v).dataSide = s.dataSide := rfl
@[simp] theorem dataSide_setCompareFlags (s : State) (a b : Nibble) : (s.setCompareFlags a b).dataSide = s.dataSide := rfl
@[simp] theorem dataSide_setLogicFlag (s : State) (v : Nibble) : (s.setLogicFlag v).dataSide = s.dataSide := rfl
@[simp] theorem dataSide_deeper (s : State) : s.deeper.dataSide = s.dataSide := rfl
@[simp] theorem dataSide_shallower (s : State) : s.shallower.dataSide = s.dataSide := rfl
@[simp] theorem dataSide_dropNibble (s : State) : (dropNibble s).dataSide = s.dataSide := rfl
@[simp] theorem dataSide_setIdx (s : State) (k : IndexReg) (v : DataAddr) : (s.setIdx k v).dataSide = s.dataSide := by
  cases k <;> rfl
@[simp] theorem dataSide_bumpIdx (s : State) (k : IndexReg) (n : Octet) : (s.bumpIdx k n).dataSide = s.dataSide := by
  simp [State.bumpIdx]

/-! ### Accesses work on it -/

@[simp] theorem dataSide_dataSide (s : State) : s.dataSide.dataSide = s.dataSide := rfl

theorem dataSide_setCell (s : State) (a : DataAddr) (n : Nibble) : (s.setCell a n).dataSide = s.dataSide.setCell a n := rfl

theorem dataSide_writePtControl (n : Nibble) (s : State) : (writePtControl n s).dataSide = writePtControl n s.dataSide := by
  have hr : s.dataSide.ptEnabled = s.ptEnabled := rfl
  unfold writePtControl
  cases n.getLsbD 1 <;> cases n.getLsbD 0 <;> cases h : s.ptEnabled <;> simp [hr, h] <;> rfl

theorem dataSide_ioWrite (a : DataAddr) (n : Nibble) (s : State) : (ioWrite a n s).dataSide = ioWrite a n s.dataSide := by
  unfold ioWrite
  split
  any_goals rfl
  exact dataSide_writePtControl n s

/-- A write acts on the data side alone (R44). -/
@[simp] theorem dataSide_memWrite (a : DataAddr) (n : Nibble) (s : State) :
    (memWrite a n s).dataSide = memWrite a n s.dataSide := by
  have h1 : s.dataSide.inRam a = s.inRam a := rfl
  have h2 : s.dataSide.inDisplay a = s.inDisplay a := rfl
  have h3 : s.dataSide.inIo a = s.inIo a := rfl
  unfold memWrite
  rw [h1, h2, h3, ← dataSide_setCell, ← dataSide_ioWrite]
  cases s.inRam a <;> cases s.inDisplay a <;> cases s.inIo a <;> rfl

/-- So does the effect of a read (R43). -/
@[simp] theorem dataSide_memRead (a : DataAddr) (s : State) : (memRead a s).2.dataSide = (memRead a s.dataSide).2 := by
  have h1 : s.dataSide.ioAccess a = s.ioAccess a := rfl
  rw [memRead_state, memRead_state, h1]
  cases s.ioAccess a
  · rfl
  · unfold ioReadEffect; simp only [if_true]; split <;> rfl

/-! ### Lists of accesses -/

/-- Reading every address of a list, in order, for the effects alone. -/
def readAll (l : List DataAddr) (s : State) : State := l.foldl (fun u k => (memRead k u).2) s

/-- Writing to every address of a list, in order. -/
def writeAll (l : List (DataAddr × Nibble)) (s : State) : State := l.foldl (fun u p => memWrite p.1 p.2 u) s

/-- A read leaves what an operand names alone. -/
@[simp] theorem regAddr_memRead (r : Reg) (a : DataAddr) (s : State) : regAddr r (memRead a s).2 = regAddr r s := by
  cases r <;> simp [regAddr]

@[simp] theorem regAddr_readReg (r q : Reg) (s : State) : regAddr r (readReg q s).2 = regAddr r s := by
  cases r <;> simp [regAddr]

@[simp] theorem regAddr_readTop (r : Reg) (s : State) : regAddr r (readTop s).2 = regAddr r s := by
  cases r <;> simp [regAddr]

/-- Reading operand `r` reads the addresses it names (R13). -/
@[simp] theorem dataSide_readReg (r : Reg) (s : State) : (readReg r s).2.dataSide = readAll (regAddr r s) s.dataSide := by
  cases r <;> simp [readReg, regAddr, readAll]

/-- Writing operand `r` writes to the addresses it names (R13). -/
@[simp] theorem dataSide_writeReg (r : Reg) (n : Nibble) (s : State) :
    (writeReg r n s).dataSide = writeAll ((regAddr r s).map (fun k => (k, n))) s.dataSide := by
  cases r <;> simp [writeReg, regAddr, writeAll]

@[simp] theorem dataSide_readTop (s : State) : (readTop s).2.dataSide = (memRead (stackAddr s.sp) s.dataSide).2 := by
  simp [readTop]

@[simp] theorem dataSide_pushNibble (n : Nibble) (s : State) :
    (pushNibble n s).dataSide = memWrite (stackAddr (s.sp - 1)) n s.dataSide := by
  simp [pushNibble]

@[simp] theorem dataSide_frameRead (o : Option DataAddr) (s : State) :
    (frameRead o s).2.dataSide = readAll o.toList s.dataSide := by
  cases o <;> simp [frameRead, readAll]

@[simp] theorem dataSide_frameWrite (o : Option DataAddr) (n : Nibble) (s : State) :
    (frameWrite o n s).dataSide = writeAll (o.toList.map (fun k => (k, n))) s.dataSide := by
  cases o <;> simp [frameWrite, writeAll]

/-- Popping a return address reads its frame cells, the lowest first (R112). -/
@[simp] theorem dataSide_popPC (s : State) : (popPC s).2.dataSide = readAll (popFrame s) s.dataSide := by
  simp only [popPC, dataSide_setSp, dataSide_frameRead, readAll, ← List.foldl_append]
  congr 1
  simp only [popFrame]
  cases frameAddr s.params.stackWrap s.sp 0 <;> cases frameAddr s.params.stackWrap s.sp 1 <;>
    cases frameAddr s.params.stackWrap s.sp 2 <;> rfl

@[simp] theorem dataSide_returnFromCall (skip : CodeAddr) (s : State) :
    (returnFromCall skip s).dataSide = readAll (popFrame s) s.dataSide := by
  simp [returnFromCall]

/-- A cell written to and not written again receives the value it holds at the end: writing that value instead is the same. -/
theorem memWrite_final (a : DataAddr) (n v : Nibble) (u : State) (h : v = n ∨ u.backed a = false) :
    memWrite a v u = memWrite a n u := by
  rcases h with rfl | h
  · rfl
  · rw [memWrite_hole a v u h, memWrite_hole a n u h]

theorem writeAll_cell_other (l : List (DataAddr × Nibble)) (k : DataAddr) (u : State) (h : k ∉ l.map Prod.fst) :
    (writeAll l u).cell k = u.cell k := by
  induction l generalizing u with
  | nil => rfl
  | cons p l ih =>
    simp only [List.map_cons, List.mem_cons, not_or] at h
    show (writeAll l (memWrite p.1 p.2 u)).cell k = _
    rw [ih _ h.2, memWrite_cell_other _ _ _ _ h.1]

/-- Writes to different addresses may be made with the values the cells hold after all of them. -/
theorem writeAll_final (l : List (DataAddr × Nibble)) (u : State) (hw : Memory.wf u.mem = true)
    (hn : (l.map Prod.fst).Nodup) :
    writeAll l u = (l.map Prod.fst).foldl (fun w k => memWrite k ((writeAll l u).cell k) w) u := by
  induction l generalizing u with
  | nil => rfl
  | cons p l ih =>
    obtain ⟨h1, h2⟩ := List.nodup_cons.mp hn
    have e : writeAll (p :: l) u = writeAll l (memWrite p.1 p.2 u) := rfl
    have hc : memWrite p.1 ((writeAll (p :: l) u).cell p.1) u = memWrite p.1 p.2 u := by
      apply memWrite_final
      rw [e, writeAll_cell_other _ _ _ h1]
      cases hb : u.backed p.1
      · exact .inr rfl
      · exact .inl (memWrite_cell_same _ _ _ hw hb)
    simp only [List.map_cons, List.foldl_cons, hc]
    rw [e]
    exact ih _ (memWrite_wf _ _ _ hw) h2

end Sys2Proof.Machine
end

