-- ==== Sys2Proof/Laws/Arith.lean ====
section
/-! SUPPORT. What the shared shapes of the arithmetic family do (Machine/Operands.lean), for any operation `op` of which a
relation `P` between its inputs and its outputs is known: the operand read, the operation, the result stored and the
flags set, in one lemma per shape. -/

namespace Sys2Proof.Machine

/-- The shape `r, i` (spec/47_arith.md R230 to R235): `op` of the operand and the immediate, stored back with `C` and `Z`. -/
theorem arithImm_stores (op : Adder) (cin : Bool) (r : Reg) (i : Nibble) (s : State)
    (P : Nibble → Nibble → Bool → Bool → Nibble → Bool → Prop)
    (hP : ∀ a b c d, P a b c d (op a b c d).1 (op a b c d).2) (hw : Memory.wf s.mem = true) :
    ∃ v c, P (regValue r s) i (cin && s.flagC) s.flagD v c ∧ StoresWithCZ r v c s (arithImm op cin r i s) := by
  refine ⟨(op (readReg r s).1 i (cin && (readReg r s).2.flagC) (readReg r s).2.flagD).1,
    (op (readReg r s).1 i (cin && (readReg r s).2.flagC) (readReg r s).2.flagD).2, ?_, ?_⟩
  · have := hP (readReg r s).1 i (cin && (readReg r s).2.flagC) (readReg r s).2.flagD
    simpa [regValue] using this
  · exact storesWithCZ_of r _ s _ hw (by simp) (by simp) (by simp) (by simp) (by simp)

/-- The shape `r, q` (R231 to R236): the same with a second operand, read after the first. -/
theorem arithReg_stores (op : Adder) (cin : Bool) (r q : Reg) (s : State)
    (P : Nibble → Nibble → Bool → Bool → Nibble → Bool → Prop)
    (hP : ∀ a b c d, P a b c d (op a b c d).1 (op a b c d).2) (hw : Memory.wf s.mem = true) :
    ∃ v c, P (regValue r s) (secondValue r q s) (cin && s.flagC) s.flagD v c ∧
      StoresWithCZ r v c s (arithReg op cin r q s) := by
  let o := readReg q (readReg r s).2
  refine ⟨(op (readReg r s).1 o.1 (cin && o.2.flagC) o.2.flagD).1,
    (op (readReg r s).1 o.1 (cin && o.2.flagC) o.2.flagD).2, ?_, ?_⟩
  · have := hP (readReg r s).1 o.1 (cin && o.2.flagC) o.2.flagD
    simpa [regValue, secondValue, o] using this
  · exact storesWithCZ_of r _ s _ hw (by simp) (by simp) (by simp) (by simp) (by simp)

/-- A store with flags looks at `A`, `B`, the memory and `F` alone. -/
theorem storesWithCZ_congr (r : Reg) (v : Nibble) (c : Bool) (s t u : State) (h : StoresWithCZ r v c s t)
    (ha : u.a = t.a) (hb : u.b = t.b) (hm : u.mem = t.mem) (hf : u.f = t.f) : StoresWithCZ r v c s u := by
  obtain ⟨h1, h2⟩ := h
  have hfl := flags_of_f t u hf
  refine ⟨regReceives_congr _ _ _ _ _ h1 ha hb hm, ?_⟩
  rw [hfl.1, hfl.2.1, hfl.2.2.1, hfl.2.2.2]; exact h2

/-- The cell at an index register, as an operand. -/
def cellOperand : IndexReg → Reg
  | .x => .mx
  | .y => .my

/-- The shape of `ACPX`, `ACPY`, `SCPX`, `SCPY` (R251 to R254): `op` of the cell at the index register and an operand, stored back
into the cell with `C` and `Z`. -/
theorem arithIndexed_stores (op : Adder) (k : IndexReg) (r : Reg) (s : State)
    (P : Nibble → Nibble → Bool → Bool → Nibble → Bool → Prop)
    (hP : ∀ a b c d, P a b c d (op a b c d).1 (op a b c d).2) (hw : Memory.wf s.mem = true) :
    ∃ v c, P (regValue (cellOperand k) s) (secondValue (cellOperand k) r s) s.flagC s.flagD v c ∧
      StoresWithCZ (cellOperand k) v c s (arithIndexed op k r s) := by
  let o := readReg r (readReg (cellOperand k) s).2
  refine ⟨(op (readReg (cellOperand k) s).1 o.1 o.2.flagC o.2.flagD).1,
    (op (readReg (cellOperand k) s).1 o.1 o.2.flagC o.2.flagD).2, ?_, ?_⟩
  · have := hP (readReg (cellOperand k) s).1 o.1 o.2.flagC o.2.flagD
    simpa [regValue, secondValue, o] using this
  · refine storesWithCZ_congr _ _ _ s _ _ (storesWithCZ_of (cellOperand k)
      (op (readReg (cellOperand k) s).1 o.1 o.2.flagC o.2.flagD) s o.2 hw
      (by simp [o]) (by simp [o]) (by simp [o]) (by simp [o]) (by simp [o])) ?_ ?_ ?_ ?_
    all_goals
      cases k <;> simp [arithIndexed, cellOperand, o, writeReg, readReg, State.idx, State.setArithFlags, State.setCZ,
        State.setC, State.setZ]

/-- Its index register moves on by one within its page (R251 to R254). -/
theorem arithIndexed_x (op : Adder) (r : Reg) (s : State) :
    (arithIndexed op .x r s).x = idxAdd s.x 1 ∧ (arithIndexed op .x r s).y = s.y := by
  simp [arithIndexed, State.bumpIdx, State.setIdx, State.idx]

theorem arithIndexed_y (op : Adder) (r : Reg) (s : State) :
    (arithIndexed op .y r s).y = idxAdd s.y 1 ∧ (arithIndexed op .y r s).x = s.x := by
  simp [arithIndexed, State.bumpIdx, State.setIdx, State.idx]

/-- The rotates (R247, R248): `op` of the operand and `C`, stored back with `C`. -/
theorem rotateReg_stores (op : Nibble → Bool → Nibble × Bool) (r : Reg) (s : State)
    (P : Nibble → Bool → Nibble → Bool → Prop) (hP : ∀ a b, P a b (op a b).1 (op a b).2)
    (hw : Memory.wf s.mem = true) :
    ∃ v c, P (regValue r s) s.flagC v c ∧ StoresWithC r v c s (rotateReg op r s) := by
  refine ⟨(op (readReg r s).1 (readReg r s).2.flagC).1, (op (readReg r s).1 (readReg r s).2.flagC).2, ?_, ?_⟩
  · simpa [regValue] using hP (readReg r s).1 (readReg r s).2.flagC
  · exact storesWithC_of r _ _ s _ hw (by simp) (by simp) (by simp) (by simp) (by simp)

end Sys2Proof.Machine
end

