-- ==== Sys2Proof/Laws/PerInstr.lean ====
section
/-! SUPPORT. One fact per instruction form: the row of the opcode table that stands for it (spec/30_encoding.md R61, R66).
Which row a word decodes to when several match it is another matter (R62, R67) and not said here. -/

namespace Sys2Proof.Laws.EncodedRow

/-- Does a row describe an instruction: does its pattern match the instruction's word, is its cycle cost the
instruction's, and do the arguments it extracts (R63) give the instruction back? -/
def rowReads (i : Instr) (d : Descriptor) : Bool :=
  d.matchesWord (encode i) && d.cycles == i.cycles &&
    decide (d.build (extractArgs (encode i) d).1 (extractArgs (encode i) d).2 = i)

/-- Some row of the opcode table describes the instruction. -/
def Statement (i : Instr) : Prop :=
  ∃ d ∈ opcodeTable, rowReads i d = true

theorem of_row (n : Nat) (i : Instr) (h : (opcodeTable[n]?).any (rowReads i) = true) : Statement i := by
  cases hd : opcodeTable[n]? with
  | none => rw [hd] at h; cases h
  | some d => rw [hd] at h; exact ⟨d, List.mem_of_getElem? hd, h⟩

theorem pset (p : BankPage) : Statement (.pset p) := of_row 0 _ (by revert p; decide)
theorem jp (dest : Octet) : Statement (.jp dest) := of_row 1 _ (by revert dest; decide)
theorem jpC (dest : Octet) : Statement (.jpC dest) := of_row 2 _ (by revert dest; decide)
theorem jpNC (dest : Octet) : Statement (.jpNC dest) := of_row 3 _ (by revert dest; decide)
theorem jpZ (dest : Octet) : Statement (.jpZ dest) := of_row 4 _ (by revert dest; decide)
theorem jpNZ (dest : Octet) : Statement (.jpNZ dest) := of_row 5 _ (by revert dest; decide)
theorem jpba : Statement .jpba := of_row 6 _ rfl
theorem call (dest : Octet) : Statement (.call dest) := of_row 7 _ (by revert dest; decide)
theorem calz (dest : Octet) : Statement (.calz dest) := of_row 8 _ (by revert dest; decide)
theorem ret : Statement .ret := of_row 9 _ rfl
theorem rets : Statement .rets := of_row 10 _ rfl
theorem retd (l : Octet) : Statement (.retd l) := of_row 11 _ (by revert l; decide)
theorem nop5 : Statement .nop5 := of_row 12 _ rfl
theorem nop7 : Statement .nop7 := of_row 13 _ rfl
theorem halt : Statement .halt := of_row 14 _ rfl
theorem slp : Statement .slp := of_row 15 _ rfl
theorem incX : Statement .incX := of_row 16 _ rfl
theorem incY : Statement .incY := of_row 17 _ rfl
theorem ldXi (v : Octet) : Statement (.ldXi v) := of_row 18 _ (by revert v; decide)
theorem ldYi (v : Octet) : Statement (.ldYi v) := of_row 19 _ (by revert v; decide)
theorem ldXPr (r : Reg) : Statement (.ldXPr r) := of_row 20 _ (by cases r <;> rfl)
theorem ldXHr (r : Reg) : Statement (.ldXHr r) := of_row 21 _ (by cases r <;> rfl)
theorem ldXLr (r : Reg) : Statement (.ldXLr r) := of_row 22 _ (by cases r <;> rfl)
theorem ldYPr (r : Reg) : Statement (.ldYPr r) := of_row 23 _ (by cases r <;> rfl)
theorem ldYHr (r : Reg) : Statement (.ldYHr r) := of_row 24 _ (by cases r <;> rfl)
theorem ldYLr (r : Reg) : Statement (.ldYLr r) := of_row 25 _ (by cases r <;> rfl)
theorem ldrXP (r : Reg) : Statement (.ldrXP r) := of_row 26 _ (by cases r <;> rfl)
theorem ldrXH (r : Reg) : Statement (.ldrXH r) := of_row 27 _ (by cases r <;> rfl)
theorem ldrXL (r : Reg) : Statement (.ldrXL r) := of_row 28 _ (by cases r <;> rfl)
theorem ldrYP (r : Reg) : Statement (.ldrYP r) := of_row 29 _ (by cases r <;> rfl)
theorem ldrYH (r : Reg) : Statement (.ldrYH r) := of_row 30 _ (by cases r <;> rfl)
theorem ldrYL (r : Reg) : Statement (.ldrYL r) := of_row 31 _ (by cases r <;> rfl)
theorem adcXH (imm : Nibble) : Statement (.adcXH imm) := of_row 32 _ (by revert imm; decide)
theorem adcXL (imm : Nibble) : Statement (.adcXL imm) := of_row 33 _ (by revert imm; decide)
theorem adcYH (imm : Nibble) : Statement (.adcYH imm) := of_row 34 _ (by revert imm; decide)
theorem adcYL (imm : Nibble) : Statement (.adcYL imm) := of_row 35 _ (by revert imm; decide)
theorem cpXH (imm : Nibble) : Statement (.cpXH imm) := of_row 36 _ (by revert imm; decide)
theorem cpXL (imm : Nibble) : Statement (.cpXL imm) := of_row 37 _ (by revert imm; decide)
theorem cpYH (imm : Nibble) : Statement (.cpYH imm) := of_row 38 _ (by revert imm; decide)
theorem cpYL (imm : Nibble) : Statement (.cpYL imm) := of_row 39 _ (by revert imm; decide)
theorem ldRI (r : Reg) (imm : Nibble) : Statement (.ldRI r imm) := of_row 40 _ (by cases r <;> revert imm <;> decide)
theorem ldRQ (r : Reg) (q : Reg) : Statement (.ldRQ r q) := of_row 41 _ (by cases r <;> cases q <;> rfl)
theorem ldAMn (n : Nibble) : Statement (.ldAMn n) := of_row 42 _ (by revert n; decide)
theorem ldBMn (n : Nibble) : Statement (.ldBMn n) := of_row 43 _ (by revert n; decide)
theorem ldMnA (n : Nibble) : Statement (.ldMnA n) := of_row 44 _ (by revert n; decide)
theorem ldMnB (n : Nibble) : Statement (.ldMnB n) := of_row 45 _ (by revert n; decide)
theorem ldpxMX (imm : Nibble) : Statement (.ldpxMX imm) := of_row 46 _ (by revert imm; decide)
theorem ldpxRQ (r : Reg) (q : Reg) : Statement (.ldpxRQ r q) := of_row 47 _ (by cases r <;> cases q <;> rfl)
theorem ldpyMY (imm : Nibble) : Statement (.ldpyMY imm) := of_row 48 _ (by revert imm; decide)
theorem ldpyRQ (r : Reg) (q : Reg) : Statement (.ldpyRQ r q) := of_row 49 _ (by cases r <;> cases q <;> rfl)
theorem lbpx (l : Octet) : Statement (.lbpx l) := of_row 50 _ (by revert l; decide)
theorem scf : Statement .scf := of_row 51 _ rfl
theorem szf : Statement .szf := of_row 52 _ rfl
theorem sdf : Statement .sdf := of_row 53 _ rfl
theorem ei : Statement .ei := of_row 54 _ rfl
theorem setF (imm : Nibble) : Statement (.setF imm) := of_row 55 _ (by revert imm; decide)
theorem rcf : Statement .rcf := of_row 56 _ rfl
theorem rzf : Statement .rzf := of_row 57 _ rfl
theorem rdf : Statement .rdf := of_row 58 _ rfl
theorem di : Statement .di := of_row 59 _ rfl
theorem rstF (imm : Nibble) : Statement (.rstF imm) := of_row 60 _ (by revert imm; decide)
theorem incSP : Statement .incSP := of_row 61 _ rfl
theorem decSP : Statement .decSP := of_row 62 _ rfl
theorem pushR (r : Reg) : Statement (.pushR r) := of_row 63 _ (by cases r <;> rfl)
theorem pushXP : Statement .pushXP := of_row 64 _ rfl
theorem pushXH : Statement .pushXH := of_row 65 _ rfl
theorem pushXL : Statement .pushXL := of_row 66 _ rfl
theorem pushYP : Statement .pushYP := of_row 67 _ rfl
theorem pushYH : Statement .pushYH := of_row 68 _ rfl
theorem pushYL : Statement .pushYL := of_row 69 _ rfl
theorem pushF : Statement .pushF := of_row 70 _ rfl
theorem popR (r : Reg) : Statement (.popR r) := of_row 71 _ (by cases r <;> rfl)
theorem popXP : Statement .popXP := of_row 72 _ rfl
theorem popXH : Statement .popXH := of_row 73 _ rfl
theorem popXL : Statement .popXL := of_row 74 _ rfl
theorem popYP : Statement .popYP := of_row 75 _ rfl
theorem popYH : Statement .popYH := of_row 76 _ rfl
theorem popYL : Statement .popYL := of_row 77 _ rfl
theorem popF : Statement .popF := of_row 78 _ rfl
theorem ldSPHr (r : Reg) : Statement (.ldSPHr r) := of_row 79 _ (by cases r <;> rfl)
theorem ldSPLr (r : Reg) : Statement (.ldSPLr r) := of_row 80 _ (by cases r <;> rfl)
theorem ldrSPH (r : Reg) : Statement (.ldrSPH r) := of_row 81 _ (by cases r <;> rfl)
theorem ldrSPL (r : Reg) : Statement (.ldrSPL r) := of_row 82 _ (by cases r <;> rfl)
theorem addRI (r : Reg) (imm : Nibble) : Statement (.addRI r imm) := of_row 83 _ (by cases r <;> revert imm <;> decide)
theorem addRQ (r : Reg) (q : Reg) : Statement (.addRQ r q) := of_row 84 _ (by cases r <;> cases q <;> rfl)
theorem adcRI (r : Reg) (imm : Nibble) : Statement (.adcRI r imm) := of_row 85 _ (by cases r <;> revert imm <;> decide)
theorem adcRQ (r : Reg) (q : Reg) : Statement (.adcRQ r q) := of_row 86 _ (by cases r <;> cases q <;> rfl)
theorem subRQ (r : Reg) (q : Reg) : Statement (.subRQ r q) := of_row 87 _ (by cases r <;> cases q <;> rfl)
theorem sbcRI (r : Reg) (imm : Nibble) : Statement (.sbcRI r imm) := of_row 88 _ (by cases r <;> revert imm <;> decide)
theorem sbcRQ (r : Reg) (q : Reg) : Statement (.sbcRQ r q) := of_row 89 _ (by cases r <;> cases q <;> rfl)
theorem andRI (r : Reg) (imm : Nibble) : Statement (.andRI r imm) := of_row 90 _ (by cases r <;> revert imm <;> decide)
theorem andRQ (r : Reg) (q : Reg) : Statement (.andRQ r q) := of_row 91 _ (by cases r <;> cases q <;> rfl)
theorem orRI (r : Reg) (imm : Nibble) : Statement (.orRI r imm) := of_row 92 _ (by cases r <;> revert imm <;> decide)
theorem orRQ (r : Reg) (q : Reg) : Statement (.orRQ r q) := of_row 93 _ (by cases r <;> cases q <;> rfl)
theorem notR (r : Reg) : Statement (.notR r) := of_row 94 _ (by cases r <;> rfl)
theorem xorRI (r : Reg) (imm : Nibble) : Statement (.xorRI r imm) := of_row 95 _ (by cases r <;> revert imm <;> decide)
theorem xorRQ (r : Reg) (q : Reg) : Statement (.xorRQ r q) := of_row 96 _ (by cases r <;> cases q <;> rfl)
theorem cpRI (r : Reg) (imm : Nibble) : Statement (.cpRI r imm) := of_row 97 _ (by cases r <;> revert imm <;> decide)
theorem cpRQ (r : Reg) (q : Reg) : Statement (.cpRQ r q) := of_row 98 _ (by cases r <;> cases q <;> rfl)
theorem fanRI (r : Reg) (imm : Nibble) : Statement (.fanRI r imm) := of_row 99 _ (by cases r <;> revert imm <;> decide)
theorem fanRQ (r : Reg) (q : Reg) : Statement (.fanRQ r q) := of_row 100 _ (by cases r <;> cases q <;> rfl)
theorem rlc (d : BitVec 2) (r : Reg) : Statement (.rlc d r) := of_row 101 _ (by cases r <;> revert d <;> decide)
theorem rrc (r : Reg) : Statement (.rrc r) := of_row 102 _ (by cases r <;> rfl)
theorem incMn (n : Nibble) : Statement (.incMn n) := of_row 103 _ (by revert n; decide)
theorem decMn (n : Nibble) : Statement (.decMn n) := of_row 104 _ (by revert n; decide)
theorem acpx (r : Reg) : Statement (.acpx r) := of_row 105 _ (by cases r <;> rfl)
theorem acpy (r : Reg) : Statement (.acpy r) := of_row 106 _ (by cases r <;> rfl)
theorem scpx (r : Reg) : Statement (.scpx r) := of_row 107 _ (by cases r <;> rfl)
theorem scpy (r : Reg) : Statement (.scpy r) := of_row 108 _ (by cases r <;> rfl)

end Sys2Proof.Laws.EncodedRow
end

