-- ==== Sys2Proof/Laws/Step.lean ====
section
/-! SUPPORT. Everything one step can do (spec/40_execution_cycle.md R80), said once: later proofs cite `step_cases` and do not
unfold `step`. -/

namespace Sys2Proof.Machine

/-- A step that answers a next state is idle, raises a fault, or runs an instruction and finishes (R80, R81, R82, R90). -/
theorem step_cases (s t : State) (h : step s = .next t) :
    (s.run ≠ .ready ∧ t = idleStep s) ∨
    (s.run = .ready ∧ s.params.romWords ≤ s.pc.toNat ∧ t = raiseFault (.fetchOutOfRange s.pc) s) ∨
    (s.run = .ready ∧ s.pc.toNat < s.params.romWords ∧ t = raiseFault (.decodeFailure (s.romWord s.pc)) s ∧
      ∀ i, decode (s.romWord s.pc) ≠ .ok i) ∨
    (s.run = .ready ∧ s.pc.toNat < s.params.romWords ∧
      ∃ i u, decode (s.romWord s.pc) = .ok i ∧ exec i (prepare s) = .next u ∧ t = finishStep i u) := by
  unfold step at h
  split at h
  · rename_i hr; injection h with h; exact .inl ⟨by rw [hr]; decide, h.symm⟩
  · rename_i r hr
    injection h with h
    exact .inl ⟨by rw [hr]; exact fun e => RunState.noConfusion e, h.symm⟩
  · rename_i hr
    unfold fetch at h
    by_cases hp : s.pc.toNat < s.params.romWords
    · simp only [hp, if_true] at h
      split at h
      · rename_i e he
        injection h with h
        cases e with
        | noDescriptor w =>
          exact .inr (.inr (.inl ⟨hr, hp, h.symm, fun i hi => by rw [hi] at he; cases he⟩))
      · rename_i i hd
        split at h
        · rename_i u hu; injection h with h; exact .inr (.inr (.inr ⟨hr, hp, i, u, hd, hu, h.symm⟩))
        · cases h
        · cases h
    · simp only [hp, if_false] at h
      injection h with h
      exact .inr (.inl ⟨hr, Nat.not_lt.mp hp, h.symm⟩)

/-- A machine that is not `Ready` only idles (R90). -/
theorem step_idle (s : State) (h : s.run ≠ .ready) : step s = .next (idleStep s) := by
  unfold step
  split
  · rfl
  · rfl
  · rename_i hr; exact absurd hr h

end Sys2Proof.Machine
end

