-- ==== Sys2Proof/Laws/Timers.lean ====
section
/-! SUPPORT. What one pass of each timer loop does (spec/60_exceptions.md R321 to R323). -/

namespace Sys2Proof.Machine

@[simp] theorem slots_set_set (s : Slots) (i : SlotId) (u v : SlotState) : (s.set i u).set i v = s.set i v := by
  cases i <;> rfl

/-- The number of whole periods counted brings the stamp within one period of the tick counter (R321). -/
theorem elapsedPeriods_bounds (p now stamp : Nat) (hp : 0 < p) (h : stamp ≤ now) :
    stamp + elapsedPeriods p now stamp * p ≤ now ∧ now < stamp + elapsedPeriods p now stamp * p + p := by
  unfold elapsedPeriods
  have h1 := Nat.div_mul_le_self (now - stamp) p
  have h2 := Nat.lt_div_mul_add hp (a := now - stamp)
  omega

/-- A pass of the clock timer moves its stamp and raises bit 3 of its slot (R322). -/
theorem clockPeriod_slot (s : State) :
    (clockPeriod s).clkStamp = s.clkStamp + s.params.clkPeriod ∧
    (clockPeriod s).slots.get .clockTimer = { s.slots.clockTimer with
      factor := s.slots.clockTimer.factor ||| 8
      triggered := s.slots.clockTimer.triggered || s.slots.clockTimer.mask.getLsbD 3 } :=
  ⟨by simp [clockPeriod], generateInterrupt_get .clockTimer 3 (s.setClkStamp (s.clkStamp + s.params.clkPeriod))⟩

/-- A pass of the programmable timer that does not reach 0 counts down by one (R323). -/
theorem progPeriodPass_counts (s : State) (h : s.ptData ≠ 1) :
    progPeriodPass s = (s.setPtStamp (s.ptStamp + s.params.progPeriod)).setPtData (s.ptData - 1) := by
  have h0 : ¬ (s.ptData - 1 = 0) := by revert h; generalize s.ptData = d; revert d; decide
  exact if_neg (by simpa using h0)

/-- A pass that reaches 0 reloads and raises bit 0 of slot 0 (R323). -/
theorem progPeriodPass_reloads (s : State) (h : s.ptData = 1) :
    progPeriodPass s = generateInterrupt .progTimer 0
      (((s.setPtStamp (s.ptStamp + s.params.progPeriod)).setPtData 0).setPtData s.ptReload) := by
  have e : s.ptData - 1 = 0 := by rw [h]; decide
  unfold progPeriodPass
  simp only [State.setPtStamp_ptData, e, State.setPtData_ptData, if_true, State.setPtData_ptReload, State.setPtStamp_ptReload]

end Sys2Proof.Machine
end

