-- ==== Sys2Proof/Tests/Slice0.lean ====
section
/-! SUPPORT. The model's own tests. Every expected word and value is the spec's: the encodings of spec/30_encoding.md R66
and the vectors of spec/95_test_vectors.md, named by their numbers there. -/

namespace Sys2Proof.Tests

open Sys2Proof.Machine

/-- The state after one step that runs the word `w`, fetched at the program counter. -/
def after (w : Nat) (s : State) : State :=
  match step (s.withFetchWord 12 w) with
  | .next t => t
  | _ => s

/-! ### Well-formedness: the fourteen shadowed forms of R67 are refused, each check by a term of its own -/

theorem test_illformed_ldpxRQ_a_a : Instr.wellFormed (.ldpxRQ .a .a) = false := by decide
theorem test_illformed_ldpyRQ_a_a : Instr.wellFormed (.ldpyRQ .a .a) = false := by decide
theorem test_illformed_xorRI_15 : Instr.wellFormed (.xorRI .my 0xF) = false := by decide
theorem test_illformed_setF_1 : Instr.wellFormed (.setF 1) = false := by decide
theorem test_illformed_setF_2 : Instr.wellFormed (.setF 2) = false := by decide
theorem test_illformed_setF_4 : Instr.wellFormed (.setF 4) = false := by decide
theorem test_illformed_setF_8 : Instr.wellFormed (.setF 8) = false := by decide
theorem test_illformed_rstF_E : Instr.wellFormed (.rstF 0xE) = false := by decide
theorem test_illformed_rstF_D : Instr.wellFormed (.rstF 0xD) = false := by decide
theorem test_illformed_rstF_B : Instr.wellFormed (.rstF 0xB) = false := by decide
theorem test_illformed_rstF_7 : Instr.wellFormed (.rstF 7) = false := by decide

theorem test_wellformed_neighbours : Instr.wellFormed (.ldpxRQ .a .b) = true ∧ Instr.wellFormed (.xorRI .my 0xE) = true ∧
    Instr.wellFormed (.setF 3) = true ∧ Instr.wellFormed (.rstF 0) = true := by decide

/-! ### Decoding: a word for every constructor, written out bit by bit from the pattern of R66 -/

theorem test_decode_branch :
    decode 0b111001010010 = .ok (.pset 0x12) ∧
    decode 0b000010100101 = .ok (.jp 0xA5) ∧
    decode 0b001010100101 = .ok (.jpC 0xA5) ∧
    decode 0b001110100101 = .ok (.jpNC 0xA5) ∧
    decode 0b011010100101 = .ok (.jpZ 0xA5) ∧
    decode 0b011110100101 = .ok (.jpNZ 0xA5) ∧
    decode 0b111111101000 = .ok .jpba ∧
    decode 0b010010100101 = .ok (.call 0xA5) ∧
    decode 0b010110100101 = .ok (.calz 0xA5) ∧
    decode 0b111111011111 = .ok .ret ∧
    decode 0b111111011110 = .ok .rets ∧
    decode 0b000110100101 = .ok (.retd 0xA5) := by decide

theorem test_decode_system :
    decode 0b111111111011 = .ok .nop5 ∧
    decode 0b111111111111 = .ok .nop7 ∧
    decode 0b111111111000 = .ok .halt ∧
    decode 0b111111111001 = .ok .slp := by decide

theorem test_decode_index_a :
    decode 0b111011100000 = .ok .incX ∧
    decode 0b111011110000 = .ok .incY ∧
    decode 0b101101011010 = .ok (.ldXi 0x5A) ∧
    decode 0b100001011010 = .ok (.ldYi 0x5A) ∧
    decode 0b111010000001 = .ok (.ldXPr .b) ∧
    decode 0b111010000110 = .ok (.ldXHr .mx) ∧
    decode 0b111010001011 = .ok (.ldXLr .my) ∧
    decode 0b111010010001 = .ok (.ldYPr .b) ∧
    decode 0b111010010110 = .ok (.ldYHr .mx) ∧
    decode 0b111010011011 = .ok (.ldYLr .my) ∧
    decode 0b111010100001 = .ok (.ldrXP .b) ∧
    decode 0b111010100110 = .ok (.ldrXH .mx) ∧
    decode 0b111010101011 = .ok (.ldrXL .my) := by decide

theorem test_decode_index_b :
    decode 0b111010110001 = .ok (.ldrYP .b) ∧
    decode 0b111010110110 = .ok (.ldrYH .mx) ∧
    decode 0b111010111011 = .ok (.ldrYL .my) ∧
    decode 0b101000001001 = .ok (.adcXH 9) ∧
    decode 0b101000011001 = .ok (.adcXL 9) ∧
    decode 0b101000101001 = .ok (.adcYH 9) ∧
    decode 0b101000111001 = .ok (.adcYL 9) ∧
    decode 0b101001001001 = .ok (.cpXH 9) ∧
    decode 0b101001011001 = .ok (.cpXL 9) ∧
    decode 0b101001101001 = .ok (.cpYH 9) ∧
    decode 0b101001111001 = .ok (.cpYL 9) := by decide

theorem test_decode_transfer :
    decode 0b111000011001 = .ok (.ldRI .b 9) ∧
    decode 0b111011000110 = .ok (.ldRQ .b .mx) ∧
    decode 0b111110100111 = .ok (.ldAMn 7) ∧
    decode 0b111110110111 = .ok (.ldBMn 7) ∧
    decode 0b111110000111 = .ok (.ldMnA 7) ∧
    decode 0b111110010111 = .ok (.ldMnB 7) ∧
    decode 0b111001101100 = .ok (.ldpxMX 0xC) ∧
    decode 0b111011101001 = .ok (.ldpxRQ .mx .b) ∧
    decode 0b111001111100 = .ok (.ldpyMY 0xC) ∧
    decode 0b111011111101 = .ok (.ldpyRQ .my .b) ∧
    decode 0b100110100101 = .ok (.lbpx 0xA5) := by decide

theorem test_decode_flag :
    decode 0b111101000001 = .ok .scf ∧
    decode 0b111101000010 = .ok .szf ∧
    decode 0b111101000100 = .ok .sdf ∧
    decode 0b111101001000 = .ok .ei ∧
    decode 0b111101001010 = .ok (.setF 0xA) ∧
    decode 0b111101011110 = .ok .rcf ∧
    decode 0b111101011101 = .ok .rzf ∧
    decode 0b111101011011 = .ok .rdf ∧
    decode 0b111101010111 = .ok .di ∧
    decode 0b111101010011 = .ok (.rstF 3) := by decide

theorem test_decode_stack_a :
    decode 0b111111011011 = .ok .incSP ∧
    decode 0b111111001011 = .ok .decSP ∧
    decode 0b111111000010 = .ok (.pushR .mx) ∧
    decode 0b111111000100 = .ok .pushXP ∧
    decode 0b111111000101 = .ok .pushXH ∧
    decode 0b111111000110 = .ok .pushXL ∧
    decode 0b111111000111 = .ok .pushYP ∧
    decode 0b111111001000 = .ok .pushYH ∧
    decode 0b111111001001 = .ok .pushYL ∧
    decode 0b111111001010 = .ok .pushF ∧
    decode 0b111111010010 = .ok (.popR .mx) := by decide

theorem test_decode_stack_b :
    decode 0b111111010100 = .ok .popXP ∧
    decode 0b111111010101 = .ok .popXH ∧
    decode 0b111111010110 = .ok .popXL ∧
    decode 0b111111010111 = .ok .popYP ∧
    decode 0b111111011000 = .ok .popYH ∧
    decode 0b111111011001 = .ok .popYL ∧
    decode 0b111111011010 = .ok .popF ∧
    decode 0b111111100001 = .ok (.ldSPHr .b) ∧
    decode 0b111111110001 = .ok (.ldSPLr .b) ∧
    decode 0b111111100101 = .ok (.ldrSPH .b) ∧
    decode 0b111111110101 = .ok (.ldrSPL .b) := by decide

theorem test_decode_arith_a :
    decode 0b110000100101 = .ok (.addRI .mx 5) ∧
    decode 0b101010000111 = .ok (.addRQ .b .my) ∧
    decode 0b110001100101 = .ok (.adcRI .mx 5) ∧
    decode 0b101010010111 = .ok (.adcRQ .b .my) ∧
    decode 0b101010100111 = .ok (.subRQ .b .my) ∧
    decode 0b110101100101 = .ok (.sbcRI .mx 5) ∧
    decode 0b101010110111 = .ok (.sbcRQ .b .my) ∧
    decode 0b110010100101 = .ok (.andRI .mx 5) ∧
    decode 0b101011000111 = .ok (.andRQ .b .my) ∧
    decode 0b110011100101 = .ok (.orRI .mx 5) ∧
    decode 0b101011010111 = .ok (.orRQ .b .my) ∧
    decode 0b110100101111 = .ok (.notR .mx) ∧
    decode 0b110100100101 = .ok (.xorRI .mx 5) := by decide

theorem test_decode_arith_b :
    decode 0b101011100111 = .ok (.xorRQ .b .my) ∧
    decode 0b110111100101 = .ok (.cpRI .mx 5) ∧
    decode 0b111100000111 = .ok (.cpRQ .b .my) ∧
    decode 0b110110100101 = .ok (.fanRI .mx 5) ∧
    decode 0b111100010111 = .ok (.fanRQ .b .my) ∧
    decode 0b101011110101 = .ok (.rlc 1 .b) ∧
    decode 0b111010001101 = .ok (.rrc .b) ∧
    decode 0b111101100101 = .ok (.incMn 5) ∧
    decode 0b111101110101 = .ok (.decMn 5) ∧
    decode 0b111100101001 = .ok (.acpx .b) ∧
    decode 0b111100101101 = .ok (.acpy .b) ∧
    decode 0b111100111001 = .ok (.scpx .b) ∧
    decode 0b111100111101 = .ok (.scpy .b) := by decide

theorem test_decode_illegal_neighbours :
    decode 0xE9C = .error (.noDescriptor 0xE9C) ∧ decode 0xEAC = .error (.noDescriptor 0xEAC) ∧
    decode 0xEBF = .error (.noDescriptor 0xEBF) ∧ decode 0xED0 = .error (.noDescriptor 0xED0) ∧
    decode 0xF27 = .error (.noDescriptor 0xF27) ∧ decode 0xF30 = .error (.noDescriptor 0xF30) ∧
    decode 0xFCC = .error (.noDescriptor 0xFCC) ∧ decode 0xFDD = .error (.noDescriptor 0xFDD) ∧
    decode 0xFE9 = .error (.noDescriptor 0xFE9) ∧ decode 0xFFA = .error (.noDescriptor 0xFFA) ∧
    decode 0xFFE = .error (.noDescriptor 0xFFE) := by decide

theorem test_decode_overlaps_take_the_earlier_row : decode 0xD1F = .ok (.notR .b) ∧ decode 0xEE0 = .ok .incX ∧
    decode 0xF44 = .ok .sdf ∧ decode 0xF5B = .ok .rdf := by decide

theorem test_table_words : decodeTableWord 16 0xE42 = some (.pset 2) ∧ decodeTableWord 16 0xED0 = none := by decide

/-! ### One step each: the single-instruction vectors V1 to V141 -/

/-- V1, `PSET 0x12`. -/
theorem test_V1_PSET_0x12 :
    let t := after 0xE52 State.reset
    t.pc = 0x0101 ∧ t.np = 0x12 ∧ t.ticks = 5 := by decide

/-- V2, `JP 0x34 after a PSET 0x12`. -/
theorem test_V2_JP_0x34_after_a_PSET_0x12 :
    let t := after 0x034 (State.reset.setNp 0x12)
    t.pc = 0x1234 ∧ t.np = 0x12 ∧ t.ticks = 5 := by decide

/-- V3, `JP 0x34 with no PSET`. -/
theorem test_V3_JP_0x34_with_no_PSET :
    let t := after 0x034 State.reset
    t.pc = 0x0134 ∧ t.ticks = 5 := by decide

/-- V4, `JP C,0x20, C = 1`. -/
theorem test_V4_JP_C_0x20_C_1 :
    let t := after 0x220 (State.reset.setF 0x1)
    t.pc = 0x0120 ∧ t.ticks = 5 := by decide

/-- V5, `JP C,0x20, C = 0`. -/
theorem test_V5_JP_C_0x20_C_0 :
    let t := after 0x220 State.reset
    t.pc = 0x0101 ∧ t.ticks = 5 := by decide

/-- V6, `JP NC,0x20, C = 0`. -/
theorem test_V6_JP_NC_0x20_C_0 :
    let t := after 0x320 State.reset
    t.pc = 0x0120 ∧ t.ticks = 5 := by decide

/-- V7, `JP NC,0x20, C = 1`. -/
theorem test_V7_JP_NC_0x20_C_1 :
    let t := after 0x320 (State.reset.setF 0x1)
    t.pc = 0x0101 ∧ t.ticks = 5 := by decide

/-- V8, `JP Z,0x20, Z = 1`. -/
theorem test_V8_JP_Z_0x20_Z_1 :
    let t := after 0x620 (State.reset.setF 0x2)
    t.pc = 0x0120 ∧ t.ticks = 5 := by decide

/-- V9, `JP Z,0x20, Z = 0`. -/
theorem test_V9_JP_Z_0x20_Z_0 :
    let t := after 0x620 State.reset
    t.pc = 0x0101 ∧ t.ticks = 5 := by decide

/-- V10, `JP NZ,0x20, Z = 0`. -/
theorem test_V10_JP_NZ_0x20_Z_0 :
    let t := after 0x720 State.reset
    t.pc = 0x0120 ∧ t.ticks = 5 := by decide

/-- V11, `JP NZ,0x20, Z = 1`. -/
theorem test_V11_JP_NZ_0x20_Z_1 :
    let t := after 0x720 (State.reset.setF 0x2)
    t.pc = 0x0101 ∧ t.ticks = 5 := by decide

/-- V13, `CALL 0x40 after a PSET 0x13 (bank bit of NP ignored)`. -/
theorem test_V13_CALL_0x40_after_a_PSET_0x13_bank_bit_of_NP_ignored :
    let t := after 0x440 ((State.reset.setSp 0x80).setNp 0x13)
    t.pc = 0x0340 ∧ t.np = 0x03 ∧ t.sp = 0x7D ∧ t.cell 0x07F = 0x1 ∧ t.cell 0x07E = 0x0 ∧ t.cell 0x07D = 0x1 ∧
    t.callDepth = 1 ∧ t.ticks = 7 := by decide

/-- V14, `CALZ 0x40`. -/
theorem test_V14_CALZ_0x40 :
    let t := after 0x540 (State.reset.setSp 0x80)
    t.pc = 0x0040 ∧ t.np = 0x00 ∧ t.sp = 0x7D ∧ t.cell 0x07F = 0x1 ∧ t.cell 0x07E = 0x0 ∧ t.cell 0x07D = 0x1 ∧
    t.callDepth = 1 ∧ t.ticks = 7 := by decide

/-- V15, `CALL 0x40, stack wraps`. -/
theorem test_V15_CALL_0x40_stack_wraps :
    let t := after 0x440 (State.reset.setSp 0x01)
    t.pc = 0x0140 ∧ t.sp = 0xFE ∧ t.cell 0x000 = 0x1 ∧ t.cell 0x0FF = 0x0 ∧ t.cell 0x0FE = 0x1 ∧ t.callDepth = 1 ∧
    t.ticks = 7 := by decide

/-- V16, `RET`. -/
theorem test_V16_RET :
    let t := after 0xFDF ((((State.reset.setSp 0x7D).setCell 0x07D 0x1).setCell 0x07E 0x0).setCell 0x07F 0x2)
    t.pc = 0x0201 ∧ t.np = 0x02 ∧ t.sp = 0x80 ∧ t.callDepth = -1 ∧ t.ticks = 7 := by decide

/-- V17, `RETS (return and skip one word)`. -/
theorem test_V17_RETS_return_and_skip_one_word :
    let t := after 0xFDE ((((State.reset.setSp 0x7D).setCell 0x07D 0xF).setCell 0x07E 0xF).setCell 0x07F 0x2)
    t.pc = 0x0300 ∧ t.np = 0x03 ∧ t.sp = 0x80 ∧ t.callDepth = -1 ∧ t.ticks = 12 := by decide

/-- V18, `RETD 0xA5`. -/
theorem test_V18_RETD_0xA5 :
    let t := after 0x1A5 (((((State.reset.setSp 0x7D).setCell 0x07D 0x1).setCell 0x07E 0x0).setCell 0x07F 0x2).setX 0x040)
    t.pc = 0x0201 ∧ t.np = 0x02 ∧ t.sp = 0x80 ∧ t.cell 0x040 = 0x5 ∧ t.cell 0x041 = 0xA ∧ t.x = 0x042 ∧
    t.callDepth = -1 ∧ t.ticks = 12 := by decide

/-- V19, `JPBA`. -/
theorem test_V19_JPBA :
    let t := after 0xFE8 ((State.reset.setA 0x5).setB 0xC)
    t.pc = 0x01C5 ∧ t.ticks = 5 := by decide

/-- V20, `NOP5`. -/
theorem test_V20_NOP5 :
    let t := after 0xFFB State.reset
    t.pc = 0x0101 ∧ t.ticks = 5 := by decide

/-- V21, `NOP7`. -/
theorem test_V21_NOP7 :
    let t := after 0xFFF State.reset
    t.pc = 0x0101 ∧ t.ticks = 7 := by decide

/-- V22, `HALT`. -/
theorem test_V22_HALT :
    let t := after 0xFF8 (State.reset.setF 0x8)
    t.run = .stopped := by decide

/-- V23, `SLP`. -/
theorem test_V23_SLP :
    let t := after 0xFF9 State.reset
    t.run = .stopped := by decide

/-- V30, `INC X`. -/
theorem test_V30_INC_X :
    let t := after 0xEE0 (State.reset.setX 0x2FF)
    t.pc = 0x0101 ∧ t.x = 0x200 ∧ t.ticks = 5 := by decide

/-- V31, `INC Y`. -/
theorem test_V31_INC_Y :
    let t := after 0xEF0 (State.reset.setY 0x10F)
    t.pc = 0x0101 ∧ t.y = 0x110 ∧ t.ticks = 5 := by decide

/-- V32, `LD X,0x5A`. -/
theorem test_V32_LD_X_0x5A :
    let t := after 0xB5A (State.reset.setX 0x300)
    t.pc = 0x0101 ∧ t.x = 0x35A ∧ t.ticks = 5 := by decide

/-- V33, `LD Y,0xFF`. -/
theorem test_V33_LD_Y_0xFF :
    let t := after 0x8FF (State.reset.setY 0x200)
    t.pc = 0x0101 ∧ t.y = 0x2FF ∧ t.ticks = 5 := by decide

/-- V34, `LD XP,B`. -/
theorem test_V34_LD_XP_B :
    let t := after 0xE81 ((State.reset.setB 0xF).setX 0x012)
    t.pc = 0x0101 ∧ t.x = 0xF12 ∧ t.ticks = 5 := by decide

/-- V35, `LD XH,A`. -/
theorem test_V35_LD_XH_A :
    let t := after 0xE84 ((State.reset.setA 0x7).setX 0x312)
    t.pc = 0x0101 ∧ t.x = 0x372 ∧ t.ticks = 5 := by decide

/-- V36, `LD YL,MX`. -/
theorem test_V36_LD_YL_MX :
    let t := after 0xE9A (((State.reset.setX 0x020).setY 0x111).setCell 0x020 0x9)
    t.pc = 0x0101 ∧ t.y = 0x119 ∧ t.ticks = 5 := by decide

/-- V37, `LD A,XP`. -/
theorem test_V37_LD_A_XP :
    let t := after 0xEA0 (State.reset.setX 0xE12)
    t.pc = 0x0101 ∧ t.a = 0xE ∧ t.ticks = 5 := by decide

/-- V38, `LD MY,XL`. -/
theorem test_V38_LD_MY_XL :
    let t := after 0xEAB ((State.reset.setX 0x01C).setY 0x030)
    t.pc = 0x0101 ∧ t.ticks = 5 ∧ t.cell 0x030 = 0xC := by decide

/-- V39, `LD B,YH`. -/
theorem test_V39_LD_B_YH :
    let t := after 0xEB5 (State.reset.setY 0x0A0)
    t.pc = 0x0101 ∧ t.b = 0xA ∧ t.ticks = 5 := by decide

/-- V40, `ADC XH,0x1 (C=1)`. -/
theorem test_V40_ADC_XH_0x1_C_1 :
    let t := after 0xA01 ((State.reset.setX 0x1F0).setF 0x1)
    t.pc = 0x0101 ∧ t.x = 0x110 ∧ t.ticks = 7 := by decide

/-- V41, `ADC XL,0x8 (D=1: binary anyway)`. -/
theorem test_V41_ADC_XL_0x8_D_1_binary_anyway :
    let t := after 0xA18 ((State.reset.setX 0x008).setF 0x4)
    t.pc = 0x0101 ∧ t.x = 0x000 ∧ t.f = 0x7 ∧ t.ticks = 7 := by decide

/-- V42, `ADC YL,0x0 (C=0)`. -/
theorem test_V42_ADC_YL_0x0_C_0 :
    let t := after 0xA30 ((State.reset.setY 0x000).setF 0x0)
    t.pc = 0x0101 ∧ t.f = 0x2 ∧ t.ticks = 7 := by decide

/-- V43, `CP XH,0x3`. -/
theorem test_V43_CP_XH_0x3 :
    let t := after 0xA43 (State.reset.setX 0x030)
    t.pc = 0x0101 ∧ t.f = 0x2 ∧ t.ticks = 7 := by decide

/-- V44, `CP XL,0x9`. -/
theorem test_V44_CP_XL_0x9 :
    let t := after 0xA59 (State.reset.setX 0x003)
    t.pc = 0x0101 ∧ t.f = 0x1 ∧ t.ticks = 7 := by decide

/-- V45, `CP YH,0x2`. -/
theorem test_V45_CP_YH_0x2 :
    let t := after 0xA62 ((State.reset.setY 0x050).setF 0x3)
    t.pc = 0x0101 ∧ t.f = 0x0 ∧ t.ticks = 7 := by decide

/-- V50, `LD B,0xA`. -/
theorem test_V50_LD_B_0xA :
    let t := after 0xE1A State.reset
    t.pc = 0x0101 ∧ t.b = 0xA ∧ t.ticks = 5 := by decide

/-- V51, `LD MX,0x0 (Z untouched)`. -/
theorem test_V51_LD_MX_0x0_Z_untouched :
    let t := after 0xE20 (((State.reset.setX 0x015).setF 0x0).setCell 0x015 0x7)
    t.pc = 0x0101 ∧ t.ticks = 5 ∧ t.cell 0x015 = 0x0 := by decide

/-- V53, `LD A,MX at unbacked 0x300`. -/
theorem test_V53_LD_A_MX_at_unbacked_0x300 :
    let t := after 0xEC2 ((State.reset.setA 0x5).setX 0x300)
    t.pc = 0x0101 ∧ t.a = 0x0 ∧ t.ticks = 5 := by decide

/-- V55, `LD MX,B at display 0xE81`. -/
theorem test_V55_LD_MX_B_at_display_0xE81 :
    let t := after 0xEC9 ((State.reset.setB 0xA).setX 0xE81)
    t.pc = 0x0101 ∧ t.ticks = 5 ∧ t.cell 0xE81 = 0xA ∧
    t.outputs = [.lcdPin 0 12 false, .lcdPin 0 13 true, .lcdPin 0 14 false, .lcdPin 0 15 true] := by decide

/-- V56, `LD A,M7`. -/
theorem test_V56_LD_A_M7 :
    let t := after 0xFA7 (State.reset.setCell 0x007 0xD)
    t.pc = 0x0101 ∧ t.a = 0xD ∧ t.ticks = 5 := by decide

/-- V57, `LD MF,B`. -/
theorem test_V57_LD_MF_B :
    let t := after 0xF9F (State.reset.setB 0x6)
    t.pc = 0x0101 ∧ t.ticks = 5 ∧ t.cell 0x00F = 0x6 := by decide

/-- V58, `LDPX MX,0xC at XHL=0xFF`. -/
theorem test_V58_LDPX_MX_0xC_at_XHL_0xFF :
    let t := after 0xE6C (State.reset.setX 0x1FF)
    t.pc = 0x0101 ∧ t.x = 0x100 ∧ t.ticks = 5 ∧ t.cell 0x1FF = 0xC := by decide

/-- V59, `LDPX MX,A`. -/
theorem test_V59_LDPX_MX_A :
    let t := after 0xEE8 ((State.reset.setA 0x3).setX 0x040)
    t.pc = 0x0101 ∧ t.x = 0x041 ∧ t.ticks = 5 ∧ t.cell 0x040 = 0x3 := by decide

/-- V60, `LDPX A,B (no MX)`. -/
theorem test_V60_LDPX_A_B_no_MX :
    let t := after 0xEE1 ((State.reset.setB 0x9).setX 0x040)
    t.pc = 0x0101 ∧ t.a = 0x9 ∧ t.x = 0x041 ∧ t.ticks = 5 := by decide

/-- V61, `LDPY B,MY`. -/
theorem test_V61_LDPY_B_MY :
    let t := after 0xEF7 ((State.reset.setY 0x050).setCell 0x050 0x4)
    t.pc = 0x0101 ∧ t.b = 0x4 ∧ t.y = 0x051 ∧ t.ticks = 5 := by decide

/-- V62, `LBPX MX,0xA5 at XHL=0xFF`. -/
theorem test_V62_LBPX_MX_0xA5_at_XHL_0xFF :
    let t := after 0x9A5 (State.reset.setX 0x1FF)
    t.pc = 0x0101 ∧ t.x = 0x101 ∧ t.ticks = 5 ∧ t.cell 0x100 = 0xA ∧ t.cell 0x1FF = 0x5 := by decide

/-- V70, `SET F,0xF`. -/
theorem test_V70_SET_F_0xF :
    let t := after 0xF4F State.reset
    t.pc = 0x0101 ∧ t.f = 0xF ∧ t.ticks = 7 := by decide

/-- V71, `SET F,0x0`. -/
theorem test_V71_SET_F_0x0 :
    let t := after 0xF40 (State.reset.setF 0x5)
    t.pc = 0x0101 ∧ t.ticks = 7 := by decide

/-- V72, `RST F,0x0`. -/
theorem test_V72_RST_F_0x0 :
    let t := after 0xF50 (State.reset.setF 0xF)
    t.pc = 0x0101 ∧ t.f = 0x0 ∧ t.ticks = 7 := by decide

/-- V73, `RST F,0xA`. -/
theorem test_V73_RST_F_0xA :
    let t := after 0xF5A (State.reset.setF 0xF)
    t.pc = 0x0101 ∧ t.f = 0xA ∧ t.ticks = 7 := by decide

/-- V74, `SCF`. -/
theorem test_V74_SCF :
    let t := after 0xF41 State.reset
    t.pc = 0x0101 ∧ t.f = 0x1 ∧ t.ticks = 7 := by decide

/-- V75, `RZF`. -/
theorem test_V75_RZF :
    let t := after 0xF5D (State.reset.setF 0xF)
    t.pc = 0x0101 ∧ t.f = 0xD ∧ t.ticks = 7 := by decide

/-- V76, `SDF`. -/
theorem test_V76_SDF :
    let t := after 0xF44 State.reset
    t.pc = 0x0101 ∧ t.f = 0x4 ∧ t.ticks = 7 := by decide

/-- V77, `EI (nothing pending)`. -/
theorem test_V77_EI_nothing_pending :
    let t := after 0xF48 State.reset
    t.pc = 0x0101 ∧ t.f = 0x8 ∧ t.ticks = 7 := by decide

/-- V78, `DI`. -/
theorem test_V78_DI :
    let t := after 0xF57 (State.reset.setF 0xF)
    t.pc = 0x0101 ∧ t.f = 0x7 ∧ t.ticks = 7 := by decide

/-- V80, `INC SP`. -/
theorem test_V80_INC_SP :
    let t := after 0xFDB (State.reset.setSp 0xFF)
    t.pc = 0x0101 ∧ t.sp = 0x00 ∧ t.ticks = 5 := by decide

/-- V81, `DEC SP`. -/
theorem test_V81_DEC_SP :
    let t := after 0xFCB (State.reset.setSp 0x00)
    t.pc = 0x0101 ∧ t.sp = 0xFF ∧ t.ticks = 5 := by decide

/-- V82, `PUSH A`. -/
theorem test_V82_PUSH_A :
    let t := after 0xFC0 ((State.reset.setA 0x9).setSp 0x40)
    t.pc = 0x0101 ∧ t.sp = 0x3F ∧ t.ticks = 5 ∧ t.cell 0x03F = 0x9 := by decide

/-- V83, `PUSH MX`. -/
theorem test_V83_PUSH_MX :
    let t := after 0xFC2 (((State.reset.setX 0x020).setSp 0x00).setCell 0x020 0x3)
    t.pc = 0x0101 ∧ t.sp = 0xFF ∧ t.ticks = 5 ∧ t.cell 0x0FF = 0x3 := by decide

/-- V84, `PUSH XP`. -/
theorem test_V84_PUSH_XP :
    let t := after 0xFC4 ((State.reset.setX 0xE12).setSp 0x40)
    t.pc = 0x0101 ∧ t.sp = 0x3F ∧ t.ticks = 5 ∧ t.cell 0x03F = 0xE := by decide

/-- V85, `PUSH YL`. -/
theorem test_V85_PUSH_YL :
    let t := after 0xFC9 ((State.reset.setY 0x12B).setSp 0x40)
    t.pc = 0x0101 ∧ t.sp = 0x3F ∧ t.ticks = 5 ∧ t.cell 0x03F = 0xB := by decide

/-- V86, `PUSH F`. -/
theorem test_V86_PUSH_F :
    let t := after 0xFCA ((State.reset.setF 0xD).setSp 0x40)
    t.pc = 0x0101 ∧ t.sp = 0x3F ∧ t.ticks = 5 ∧ t.cell 0x03F = 0xD := by decide

/-- V87, `POP B`. -/
theorem test_V87_POP_B :
    let t := after 0xFD1 ((State.reset.setSp 0x3F).setCell 0x03F 0x7)
    t.pc = 0x0101 ∧ t.b = 0x7 ∧ t.sp = 0x40 ∧ t.ticks = 5 := by decide

/-- V88, `POP XH`. -/
theorem test_V88_POP_XH :
    let t := after 0xFD5 (((State.reset.setSp 0xFF).setX 0x111).setCell 0x0FF 0xA)
    t.pc = 0x0101 ∧ t.x = 0x1A1 ∧ t.sp = 0x00 ∧ t.ticks = 5 := by decide

/-- V89, `POP F`. -/
theorem test_V89_POP_F :
    let t := after 0xFDA ((State.reset.setSp 0x3F).setCell 0x03F 0x6)
    t.pc = 0x0101 ∧ t.sp = 0x40 ∧ t.f = 0x6 ∧ t.ticks = 5 := by decide

/-- V90, `LD SPH,A`. -/
theorem test_V90_LD_SPH_A :
    let t := after 0xFE0 ((State.reset.setA 0xC).setSp 0x12)
    t.pc = 0x0101 ∧ t.sp = 0xC2 ∧ t.ticks = 5 := by decide

/-- V91, `LD SPL,B`. -/
theorem test_V91_LD_SPL_B :
    let t := after 0xFF1 ((State.reset.setB 0x3).setSp 0x12)
    t.pc = 0x0101 ∧ t.sp = 0x13 ∧ t.ticks = 5 := by decide

/-- V92, `LD A,SPH`. -/
theorem test_V92_LD_A_SPH :
    let t := after 0xFE4 (State.reset.setSp 0xB7)
    t.pc = 0x0101 ∧ t.a = 0xB ∧ t.ticks = 5 := by decide

/-- V93, `LD MX,SPL`. -/
theorem test_V93_LD_MX_SPL :
    let t := after 0xFF6 ((State.reset.setSp 0xB7).setX 0x010)
    t.pc = 0x0101 ∧ t.ticks = 5 ∧ t.cell 0x010 = 0x7 := by decide

/-- V100, `ADD A,0x5`. -/
theorem test_V100_ADD_A_0x5 :
    let t := after 0xC05 (State.reset.setA 0x4)
    t.pc = 0x0101 ∧ t.a = 0x9 ∧ t.ticks = 7 := by decide

/-- V102, `ADD A,B (decimal 9+9)`. -/
theorem test_V102_ADD_A_B_decimal_9_9 :
    let t := after 0xA81 (((State.reset.setA 0x9).setB 0x9).setF 0x4)
    t.pc = 0x0101 ∧ t.a = 0x8 ∧ t.f = 0x5 ∧ t.ticks = 7 := by decide

/-- V105, `ADD A,A (binary 8+8)`. -/
theorem test_V105_ADD_A_A_binary_8_8 :
    let t := after 0xA80 (State.reset.setA 0x8)
    t.pc = 0x0101 ∧ t.a = 0x0 ∧ t.f = 0x3 ∧ t.ticks = 7 := by decide

/-- V106, `ADD MX,0x1 (M=0xF)`. -/
theorem test_V106_ADD_MX_0x1_M_0xF :
    let t := after 0xC21 ((State.reset.setX 0x030).setCell 0x030 0xF)
    t.pc = 0x0101 ∧ t.f = 0x3 ∧ t.ticks = 7 ∧ t.cell 0x030 = 0x0 := by decide

/-- V107, `ADC B,0x0 (C=1)`. -/
theorem test_V107_ADC_B_0x0_C_1 :
    let t := after 0xC50 ((State.reset.setB 0xF).setF 0x1)
    t.pc = 0x0101 ∧ t.b = 0x0 ∧ t.f = 0x3 ∧ t.ticks = 7 := by decide

/-- V108, `ADC A,MY (decimal 9+9+1)`. -/
theorem test_V108_ADC_A_MY_decimal_9_9_1 :
    let t := after 0xA93 ((((State.reset.setA 0x9).setY 0x031).setF 0x5).setCell 0x031 0x9)
    t.pc = 0x0101 ∧ t.ticks = 7 := by decide

/-- V109, `ADC A,B (decimal F+F+1)`. -/
theorem test_V109_ADC_A_B_decimal_F_F_1 :
    let t := after 0xA91 (((State.reset.setA 0xF).setB 0xF).setF 0x5)
    t.pc = 0x0101 ∧ t.a = 0x5 ∧ t.ticks = 7 := by decide

/-- V111, `SUB A,B (3-5 decimal)`. -/
theorem test_V111_SUB_A_B_3_5_decimal :
    let t := after 0xAA1 (((State.reset.setA 0x3).setB 0x5).setF 0x4)
    t.pc = 0x0101 ∧ t.a = 0x8 ∧ t.f = 0x5 ∧ t.ticks = 7 := by decide

/-- V112, `SUB A,A`. -/
theorem test_V112_SUB_A_A :
    let t := after 0xAA0 ((State.reset.setA 0x7).setF 0x1)
    t.pc = 0x0101 ∧ t.a = 0x0 ∧ t.f = 0x2 ∧ t.ticks = 7 := by decide

/-- V113, `SBC A,0x1 (C=1, A=2)`. -/
theorem test_V113_SBC_A_0x1_C_1_A_2 :
    let t := after 0xD41 ((State.reset.setA 0x2).setF 0x1)
    t.pc = 0x0101 ∧ t.a = 0x0 ∧ t.f = 0x2 ∧ t.ticks = 7 := by decide

/-- V114, `SBC A,B (decimal 0-9-1)`. -/
theorem test_V114_SBC_A_B_decimal_0_9_1 :
    let t := after 0xAB1 (((State.reset.setA 0x0).setB 0x9).setF 0x5)
    t.pc = 0x0101 ∧ t.f = 0x7 ∧ t.ticks = 7 := by decide

/-- V115, `SBC A,B (decimal 0-F-1)`. -/
theorem test_V115_SBC_A_B_decimal_0_F_1 :
    let t := after 0xAB1 (((State.reset.setA 0x0).setB 0xF).setF 0x5)
    t.pc = 0x0101 ∧ t.a = 0xA ∧ t.ticks = 7 := by decide

/-- V116, `AND A,0x3`. -/
theorem test_V116_AND_A_0x3 :
    let t := after 0xC83 ((State.reset.setA 0xC).setF 0x1)
    t.pc = 0x0101 ∧ t.a = 0x0 ∧ t.f = 0x3 ∧ t.ticks = 7 := by decide

/-- V117, `AND B,MX`. -/
theorem test_V117_AND_B_MX :
    let t := after 0xAC6 (((State.reset.setB 0xE).setX 0x020).setCell 0x020 0x7)
    t.pc = 0x0101 ∧ t.b = 0x6 ∧ t.ticks = 7 := by decide

/-- V118, `OR A,0x0`. -/
theorem test_V118_OR_A_0x0 :
    let t := after 0xCC0 (State.reset.setA 0x0)
    t.pc = 0x0101 ∧ t.f = 0x2 ∧ t.ticks = 7 := by decide

/-- V119, `OR MX,B`. -/
theorem test_V119_OR_MX_B :
    let t := after 0xAD9 (((State.reset.setB 0x5).setX 0x020).setCell 0x020 0xA)
    t.pc = 0x0101 ∧ t.ticks = 7 ∧ t.cell 0x020 = 0xF := by decide

/-- V120, `XOR A,0x5`. -/
theorem test_V120_XOR_A_0x5 :
    let t := after 0xD05 (State.reset.setA 0x5)
    t.pc = 0x0101 ∧ t.a = 0x0 ∧ t.f = 0x2 ∧ t.ticks = 7 := by decide

/-- V121, `XOR A,B`. -/
theorem test_V121_XOR_A_B :
    let t := after 0xAE1 ((State.reset.setA 0xC).setB 0xA)
    t.pc = 0x0101 ∧ t.a = 0x6 ∧ t.ticks = 7 := by decide

/-- V122, `NOT A`. -/
theorem test_V122_NOT_A :
    let t := after 0xD0F (State.reset.setA 0xF)
    t.pc = 0x0101 ∧ t.a = 0x0 ∧ t.f = 0x2 ∧ t.ticks = 7 := by decide

/-- V123, `NOT MY`. -/
theorem test_V123_NOT_MY :
    let t := after 0xD3F ((State.reset.setY 0x021).setCell 0x021 0x6)
    t.pc = 0x0101 ∧ t.ticks = 7 ∧ t.cell 0x021 = 0x9 := by decide

/-- V124, `CP A,0x7 (equal)`. -/
theorem test_V124_CP_A_0x7_equal :
    let t := after 0xDC7 ((State.reset.setA 0x7).setF 0x1)
    t.pc = 0x0101 ∧ t.f = 0x2 ∧ t.ticks = 7 := by decide

/-- V125, `CP A,0x8 (less)`. -/
theorem test_V125_CP_A_0x8_less :
    let t := after 0xDC8 (State.reset.setA 0x7)
    t.pc = 0x0101 ∧ t.f = 0x1 ∧ t.ticks = 7 := by decide

/-- V126, `CP A,B (greater, decimal ignored)`. -/
theorem test_V126_CP_A_B_greater_decimal_ignored :
    let t := after 0xF01 (((State.reset.setA 0x9).setB 0x2).setF 0x7)
    t.pc = 0x0101 ∧ t.f = 0x4 ∧ t.ticks = 7 := by decide

/-- V127, `FAN A,0x8`. -/
theorem test_V127_FAN_A_0x8 :
    let t := after 0xD88 (State.reset.setA 0x7)
    t.pc = 0x0101 ∧ t.f = 0x2 ∧ t.ticks = 7 := by decide

/-- V128, `FAN A,B`. -/
theorem test_V128_FAN_A_B :
    let t := after 0xF11 (((State.reset.setA 0x6).setB 0x4).setF 0x3)
    t.pc = 0x0101 ∧ t.f = 0x1 ∧ t.ticks = 7 := by decide

/-- V130, `RLC B (0xAF5, C=1)`. -/
theorem test_V130_RLC_B_0xAF5_C_1 :
    let t := after 0xAF5 ((State.reset.setB 0x4).setF 0x1)
    t.pc = 0x0101 ∧ t.b = 0x9 ∧ t.f = 0x0 ∧ t.ticks = 7 := by decide

/-- V131, `RLC with w[3:2]!=w[1:0] (0xAF4 acts on A)`. -/
theorem test_V131_RLC_with_w_3_2_w_1_0_0xAF4_acts_on_A :
    let t := after 0xAF4 ((State.reset.setA 0x1).setB 0x8)
    t.pc = 0x0101 ∧ t.a = 0x2 ∧ t.ticks = 7 := by decide

/-- V132, `RRC A`. -/
theorem test_V132_RRC_A :
    let t := after 0xE8C (State.reset.setA 0x9)
    t.pc = 0x0101 ∧ t.a = 0x4 ∧ t.f = 0x1 ∧ t.ticks = 5 := by decide

/-- V133, `RRC B (C=1)`. -/
theorem test_V133_RRC_B_C_1 :
    let t := after 0xE8D ((State.reset.setB 0x0).setF 0x1)
    t.pc = 0x0101 ∧ t.b = 0x8 ∧ t.f = 0x0 ∧ t.ticks = 5 := by decide

/-- V134, `INC M5 (0xF)`. -/
theorem test_V134_INC_M5_0xF :
    let t := after 0xF65 (State.reset.setCell 0x005 0xF)
    t.pc = 0x0101 ∧ t.f = 0x3 ∧ t.ticks = 7 ∧ t.cell 0x005 = 0x0 := by decide

/-- V135, `INC M0 (decimal ignored)`. -/
theorem test_V135_INC_M0_decimal_ignored :
    let t := after 0xF60 ((State.reset.setF 0x4).setCell 0x000 0x9)
    t.pc = 0x0101 ∧ t.ticks = 7 ∧ t.cell 0x000 = 0xA := by decide

/-- V136, `DEC M2 (0)`. -/
theorem test_V136_DEC_M2_0 :
    let t := after 0xF72 State.reset
    t.pc = 0x0101 ∧ t.f = 0x1 ∧ t.ticks = 7 ∧ t.cell 0x002 = 0xF := by decide

/-- V137, `DEC M2 (1)`. -/
theorem test_V137_DEC_M2_1 :
    let t := after 0xF72 (State.reset.setCell 0x002 0x1)
    t.pc = 0x0101 ∧ t.f = 0x2 ∧ t.ticks = 7 ∧ t.cell 0x002 = 0x0 := by decide

/-- V138, `ACPX MX,A (decimal 8+7)`. -/
theorem test_V138_ACPX_MX_A_decimal_8_7 :
    let t := after 0xF28 ((((State.reset.setA 0x7).setX 0x020).setF 0x4).setCell 0x020 0x8)
    t.pc = 0x0101 ∧ t.x = 0x021 ∧ t.f = 0x5 ∧ t.ticks = 7 ∧ t.cell 0x020 = 0x5 := by decide

/-- V139, `ACPY MY,B (binary F+0+1)`. -/
theorem test_V139_ACPY_MY_B_binary_F_0_1 :
    let t := after 0xF2D ((((State.reset.setB 0x0).setY 0x0FF).setF 0x1).setCell 0x0FF 0xF)
    t.pc = 0x0101 ∧ t.y = 0x000 ∧ t.f = 0x3 ∧ t.ticks = 7 ∧ t.cell 0x0FF = 0x0 := by decide

/-- V140, `SCPX MX,A (decimal 2-5-1)`. -/
theorem test_V140_SCPX_MX_A_decimal_2_5_1 :
    let t := after 0xF38 ((((State.reset.setA 0x5).setX 0x020).setF 0x5).setCell 0x020 0x2)
    t.pc = 0x0101 ∧ t.x = 0x021 ∧ t.ticks = 7 ∧ t.cell 0x020 = 0x6 := by decide

/-- V141, `SCPY MY,A (binary 5-5)`. -/
theorem test_V141_SCPY_MY_A_binary_5_5 :
    let t := after 0xF3C (((State.reset.setA 0x5).setY 0x040).setCell 0x040 0x5)
    t.pc = 0x0101 ∧ t.y = 0x041 ∧ t.f = 0x2 ∧ t.ticks = 7 ∧ t.cell 0x040 = 0x0 := by decide
/-! ### Scenarios of one step (spec/95_test_vectors.md section 4) -/

/-- S1, second step: the jump commits 0x230, then slot 0 is entered. -/
theorem test_S1_interrupt_after_jump :
    let t := after 0x030 ((((((State.reset.setPc 0x101).setNp 2).setF 8).setSp 0x40).setTriggered .progTimer true).setTicks 5)
    t.cell 0x03F = 2 ∧ t.cell 0x03E = 3 ∧ t.cell 0x03D = 0 ∧ t.sp = 0x3D ∧ t.f = 0 ∧ t.pc = 0x10C ∧ t.np = 1 ∧
    t.callDepth = 1 ∧ t.ticks = 22 := by decide

/-- S1, first step: no entry after `PSET`. -/
theorem test_S1_no_interrupt_after_pset :
    let t := after 0xE42 (((State.reset.setF 8).setSp 0x40).setTriggered .progTimer true)
    t.pc = 0x101 ∧ t.np = 2 ∧ t.ticks = 5 ∧ t.slots.progTimer.triggered = true ∧ t.stop = false := by decide

/-- S2: both triggered slots are entered, slot 0 first; the handler of slot 5 runs first. -/
theorem test_S2_two_slots :
    let t := after 0xFFB ((((((State.reset.setPc 0x233).setNp 2).setF 8).setSp 0x40).setTriggered .progTimer true).setTriggered
      .clockTimer true)
    t.cell 0x3F = 2 ∧ t.cell 0x3E = 3 ∧ t.cell 0x3D = 4 ∧ t.cell 0x3C = 1 ∧ t.cell 0x3B = 0 ∧ t.cell 0x3A = 0xC ∧
    t.sp = 0x3A ∧ t.pc = 0x102 ∧ t.callDepth = 2 ∧ t.ticks = 29 := by decide

/-- S5: three timer periods in one pass, one underflow, the slot entered in the same step. -/
theorem test_S5_timer_underflow :
    let t := after 0xFFF (((((((State.reset.setF 8).setSp 0x40).setMask .progTimer 1).setPtEnabled true).setPtData 2).setPtReload
      3).setTicks 500)
    t.ptData = 2 ∧ t.ptStamp = 384 ∧ t.slots.progTimer.factor = 1 ∧ t.pc = 0x10C ∧ t.ticks = 519 := by decide

/-- S6b: the clock timer's period ends; its mask bit is clear. -/
theorem test_S6b_clock_period :
    let t := after 0xFFB (State.reset.setTicks 32765)
    t.clkStamp = 32768 ∧ t.slots.clockTimer.factor = 8 ∧ t.slots.clockTimer.triggered = false := by decide

/-- S7b: the read half of `XOR MX,1` clears the factor register; `Z` is of the computed value. -/
theorem test_S7b_factor_register :
    let t := after 0xD21 ((State.reset.setX 0xF02).setFactor .progTimer 1)
    t.slots.progTimer.factor = 0 ∧ t.cell 0xF02 = 0 ∧ t.f = 2 ∧ t.ticks = 7 := by decide

/-- R310: `CP MX,1` reads and so clears the factor register it addresses, and sees the flag it held. -/
theorem test_compare_clears_factor_register :
    let t := after 0xDE1 ((State.reset.setX 0xF02).setFactor .progTimer 1)
    t.slots.progTimer.factor = 0 ∧ t.f = 2 ∧ t.x = 0xF02 := by decide

/-- R170, R47: `LBPX MX,0xA5` at 0xE10 projects the low nibble of the first cell before the high nibble of the second. -/
theorem test_lbpx_display_events_in_order :
    (after 0x9A5 (State.reset.setX 0xE10)).outputs =
      [.lcdPin 8 0 true, .lcdPin 8 1 false, .lcdPin 8 2 true, .lcdPin 8 3 false,
       .lcdPin 8 4 false, .lcdPin 8 5 true, .lcdPin 8 6 false, .lcdPin 8 7 true] := by decide

/-- S8: the swapped mask writes. -/
theorem test_S8_swapped_masks :
    (after 0xE2F (State.reset.setX 0xF13)).slots.k1Pins.mask = 0xF ∧ (after 0xE2F (State.reset.setX 0xF13)).slots.serial.mask = 0 ∧
    (after 0xE21 (State.reset.setX 0xF14)).slots.serial.mask = 1 ∧ (after 0xE21 (State.reset.setX 0xF14)).slots.k0Pins.mask = 0 :=
  by decide

/-- S10: the buzzer events. -/
theorem test_S10_buzzer :
    (after 0xE27 (State.reset.setX 0xF54)).outputs = [.buzzerEnable true] ∧
    (after 0xE25 (State.reset.setX 0xF74)).outputs = [.buzzerFreq 5] := by decide

/-- S11: falling edges. -/
theorem test_S11_pins :
    let s := ((State.reset.setK0 0xF).setK1 0xF).setMask .k1Pins 4
    let t := setInputPin 0b110 false s
    t.k1 = 0xB ∧ t.slots.k1Pins.factor = 4 ∧ t.slots.k1Pins.triggered = true ∧
    (setInputPin 0b110 false t) = t ∧ (setInputPin 0b011 false t).slots.k0Pins.factor = 8 := by decide

/-- S13, S14: the two faults. -/
theorem test_S13_S14_faults :
    (after 0xED0 State.reset).run = .fault (.decodeFailure 0xED0) ∧ (after 0xED0 State.reset).pc = 0x100 ∧
    (match step ((State.reset.setPc 0x1800).setNp 0x18) with
      | .next t => t.run == .fault (.fetchOutOfRange 0x1800) && t.stop
      | _ => false) = true := by decide

/-- S17: the bank is kept and not saved. -/
theorem test_S17_interrupt_in_bank_1 :
    let t := after 0xFFB (((((State.reset.setPc 0x1234).setNp 0x12).setF 8).setSp 0x40).setTriggered .clockTimer true)
    t.cell 0x3F = 2 ∧ t.cell 0x3E = 3 ∧ t.cell 0x3D = 5 ∧ t.pc = 0x1102 ∧ t.np = 0x11 ∧ t.ticks = 17 := by decide

/-- The worked step of spec/40_execution_cycle.md section 3, from reset. -/
theorem test_worked_step :
    let t := after 0xE03 State.reset
    t.a = 3 ∧ t.pc = 0x101 ∧ t.ticks = 5 ∧ t.np = 1 ∧ t.stop = false := by decide

/-- From reset with nothing placed the first fetch reads the blank word, `NOP7` (log entry 2). -/
theorem test_blank_rom_runs_nop7 :
    (match step State.reset with
      | .next t => t == { State.reset with pc := 0x101, nextPc := 0x101, ticks := 7 }
      | _ => false) = true := by decide

/-! ### Witnesses: a state that meets the hypotheses of each obligation -/

/-- A state with cells listed, index registers into RAM and the display, a stack and interrupts enabled. -/
def busy : State :=
  (((((((State.reset.setCell 0x020 7).setCell 0xE10 3).setX 0x020).setY 0xE10).setSp 0x40).setF 9).setA 5).setB 6

/-- `busy` with the word of `CALL 0x40` loaded at its program counter. -/
def busyCall : State := busy.setRomWord 0x100 0x440

/-- `busy` with the word of `HALT` loaded at its program counter. -/
def busyHalt : State := busy.setRomWord 0x100 0xFF8

theorem test_witness_AdditionsStoreTheSum : Memory.wf busy.mem = true := by decide
theorem test_witness_SubtractionsStoreTheDifference : Memory.wf busy.mem = true := by decide
theorem test_witness_DigitStepsUpdateCellAndIndex : Memory.wf busy.mem = true := by decide
theorem test_witness_LogicInstructionsStoreBitwiseResults : Memory.wf busy.mem = true := by decide
theorem test_witness_RotatesGoThroughCarry : Memory.wf busy.mem = true := by decide
theorem test_witness_ShortCellCountersWrap : Memory.wf busy.mem = true := by decide
theorem test_witness_IndexFieldStoresCopyOneNibble : Memory.wf busy.mem = true := by decide
theorem test_witness_LoadsCopyTheirSource : Memory.wf busy.mem = true := by decide
theorem test_witness_ShortDirectTransfers : Memory.wf busy.mem = true ∧ busy.params.map = standardMap := by decide
theorem test_witness_PostIncrementTransfers : Memory.wf busy.mem = true ∧ busy.backed busy.x = true ∧
    busy.backed (idxAdd busy.x 1) = true := by decide
theorem test_witness_FlagInstructionsSetAndReset : (Instr.setF 3).wellFormed = true ∧ (Instr.rstF 3).wellFormed = true := by
  decide
theorem test_witness_StackPointerInstructions : Memory.wf busy.mem = true := by decide
theorem test_witness_PushesDecrementThenStore : Memory.wf busy.mem = true := by decide
theorem test_witness_PopsLoadThenIncrement : Memory.wf busy.mem = true := by decide

/-- Both outcomes of each conditional jump. -/
theorem test_witness_JumpsGoToTheNewPage : busy.flagC = true ∧ busy.flagZ = false ∧ (busy.setF 2).flagC = false ∧
    (busy.setF 2).flagZ = true := by decide

/-- The three frame cells exist and are backed. -/
theorem test_witness_CallsPushTheReturnAddress : Memory.wf busy.mem = true ∧
    (∀ k ∈ pushFrame busy, busy.backed k = true) ∧ (pushFrame busy).length = 3 := by decide
theorem test_witness_ReturnsPopTheReturnAddress : Memory.wf busy.mem = true := by decide

/-- Both stack modes at the edges: `SP = 0x01` and `k = -3` (wraps, or has no cell), `k = -1` (the last cell), `SP = 0xFF` and
`k = 2` (wraps, or goes on). -/
theorem test_witness_FrameCellsAreAtTheStackAddresses : frameAddr true 0x01 (-3) = some 0xFE ∧
    frameAddr false 0x01 (-3) = none ∧ frameAddr false 0x01 (-1) = some 0x000 ∧ frameAddr true 0xFF 2 = some 0x001 ∧
    frameAddr false 0xFF 2 = some 0x101 := by decide

theorem plainFrame_busy : PlainFrame busy := ⟨by decide, by decide⟩

theorem test_witness_ReturnUndoesCall : Memory.wf busy.mem = true ∧ PlainFrame busy ∧
    pcBank 0x0210 = pcBank (busy.pc + 1) := ⟨by decide, plainFrame_busy, by decide⟩
theorem test_witness_BalancedCallsRestoreDepthAndStackPointer :
    (∀ i ∈ [Instr.call 1, .calz 2], isCall i = true) ∧ (∀ i ∈ [Instr.ret, .retd 3], isReturn i = true) ∧
    [Instr.call 1, .calz 2].length = [Instr.ret, .retd 3].length := by decide
theorem test_witness_StepRunsTheDecodedInstruction : busyCall.run = .ready ∧
    busyCall.pc.toNat < busyCall.params.romWords ∧ decode (busyCall.romWord busyCall.pc) = .ok (.call 0x40) ∧
    [(0x440 : InstrWord), 0xE03][(1 : CodeAddr).toNat]? = some 0xE03 := by decide

/-- With `I = 0`, and after `PSET`. -/
theorem test_witness_StepCommitsCountsAndReloads : (busyCall.setF 1).run = .ready ∧
    busyCall.pc.toNat < busyCall.params.romWords ∧
    decode ((busyCall.setF 1).romWord (busyCall.setF 1).pc) = .ok (.call 0x40) ∧
    decode ((busy.setRomWord 0x100 0xE42).romWord 0x100) = .ok (.pset 2) ∧
    (match exec (.call 0x40) { busyCall.setF 1 with nextPc := 0x101 } with
      | .next t => t.run == .ready && t.flagI == false
      | _ => false) = true ∧
    (match exec (.pset 2) { busy.setRomWord 0x100 0xE42 with nextPc := 0x101 } with
      | .next t => t.run == .ready && isPset (.pset 2)
      | _ => false) = true := by decide
theorem test_witness_StepServicesInterruptsAfterTimers : busyCall.run = .ready ∧
    busyCall.pc.toNat < busyCall.params.romWords ∧ decode (busyCall.romWord busyCall.pc) = .ok (.call 0x40) ∧
    (match exec (.call 0x40) { busyCall with nextPc := 0x101 } with
      | .next t => t.run == .ready && t.flagI && !isPset (.call 0x40)
      | _ => false) = true := by decide
theorem test_witness_HaltEndsExecution : busyHalt.run = .ready ∧ busyHalt.nextPc = busyHalt.pc ∧
    busyHalt.pc.toNat < busyHalt.params.romWords ∧ decode (busyHalt.romWord busyHalt.pc) = .ok .halt := by decide

/-- The first address beyond the ROM, an illegal word, and a state that is not `Ready`; the last ROM address is none of the
first. -/
theorem test_witness_FaultsChangeNothingElse :
    (busy.setPc 0x1800).params.romWords ≤ (busy.setPc 0x1800).pc.toNat ∧
    (busy.setPc 0x17FF).pc.toNat < (busy.setPc 0x17FF).params.romWords ∧
    (∀ i, decode ((busy.setRomWord 0x100 0xED0).romWord 0x100) ≠ .ok i) ∧ (busy.setRun .stopped).run ≠ .ready ∧ busy.run = .ready := by
  refine ⟨by decide, by decide, ?_, by decide, by decide⟩
  intro i h
  have e : decode ((busy.setRomWord 0x100 0xED0).romWord 0x100) = .error (.noDescriptor 0xED0) := by decide
  rw [e] at h
  cases h

theorem test_witness_OnlyResetLeavesAStop : (busy.setRun .stopped).run ≠ .ready ∧
    HostEvent.setInputPin 0 true ≠ .reset := by decide

theorem test_witness_InstructionsLeaveOtherRegistersAlone :
    (match exec (.call 0x40) busy with | .next _ => true | _ => false) = true ∧ destOperand (.call 0x40) ≠ some .a ∧
    destOperand (.call 0x40) ≠ some .b ∧ writesX (.call 0x40) = false ∧ writesY (.call 0x40) = false ∧
    writesSP .incX = false := by decide

/-- The cell just above the frame a call pushes, the one just below it, and an address in a hole. -/
theorem test_witness_InstructionsLeaveOtherCellsAlone :
    (match exec (.call 0x40) busy with | .next _ => true | _ => false) = true ∧
    (0x40 : DataAddr) ∉ storedAddrs (.call 0x40) busy ∧ (0x3C : DataAddr) ∉ storedAddrs (.call 0x40) busy ∧
    storedAddrs (.call 0x40) busy = [0x3F, 0x3E, 0x3D] ∧ busy.backed 0x280 = false ∧ busy.ioAccess 0x280 = false := by decide

theorem test_witness_InstructionsNeverWriteStepState :
    (match exec (.jp 0x40) busy with | .next _ => true | _ => false) = true ∧ isPset (.jp 0x40) = false ∧
    isCall (.jp 0x40) = false ∧ isReturn (.jp 0x40) = false ∧ isJump .incX = false := by decide
theorem test_witness_InstructionsTouchDevicesOnlyThroughAccesses :
    (match exec (.addRQ .mx .a) busy with | .next _ => true | _ => false) = true ∧
    (∀ k ∈ readAddrs (.addRQ .mx .a) busy ++ storedAddrs (.addRQ .mx .a) busy, busy.ioAccess k = false) ∧
    (∀ k ∈ storedAddrs (.addRQ .mx .a) busy, busy.displayAccess k = false) := by decide
theorem test_witness_StepKeepsWhatTheHostOwns : (match step busyCall with | .next _ => true | _ => false) = true := by decide

/-- The ends of the four default ranges and the ends of the holes between them (R40). -/
theorem test_witness_HolesReadZeroAndDropWrites : busy.params.map = standardMap ∧
    (∀ k ∈ [(0x000 : DataAddr), 0x27F], busy.inRam k = true) ∧
    (∀ k ∈ [(0xE00 : DataAddr), 0xE4F, 0xE80, 0xECF], busy.inDisplay k = true) ∧
    (∀ k ∈ [(0xF00 : DataAddr), 0xF7F], busy.inIo k = true) ∧
    (∀ k ∈ [(0x280 : DataAddr), 0xDFF, 0xE50, 0xE7F, 0xED0, 0xEFF, 0xF80, 0xFFF],
      busy.inRam k = false ∧ busy.inDisplay k = false ∧ busy.inIo k = false) := by
  have hm : busy.params.map = standardMap := by decide
  refine ⟨hm, ?_⟩
  simp [State.inRam, State.inDisplay, State.inIo, hm, standardMap, Range.holds]
theorem test_witness_WrittenCellsReadBack : Memory.wf busy.mem = true ∧ busy.inRam 0x27F = true ∧
    busy.inDisplay 0xECF = true ∧ busy.ioAccess 0xECF = false := by decide
theorem test_witness_DisplayWritesReachTheLcd : busy.displayAccess 0xE00 = true ∧ busy.inRam 0x27F = true := by decide

/-- Every factor register is an I/O access; `X` and `Y` at the first and the last of them; an instruction that reads there and
one that only writes there. -/
theorem test_witness_FactorRegistersReadAndClear : (∀ i ∈ slotOrder, busy.ioAccess (factorAddr i) = true) ∧
    ((busy.setX 0xF00).setY 0xF05).x = factorAddr .clockTimer ∧ ((busy.setX 0xF00).setY 0xF05).y = factorAddr .k1Pins ∧
    ((busy.setX 0xF00).setY 0xF05).ioAccess 0xF00 = true ∧ ((busy.setX 0xF00).setY 0xF05).ioAccess 0xF05 = true ∧
    readAddrs (.cpRI .mx 1) (busy.setX 0xF00) = [factorAddr .clockTimer] ∧
    factorAddr .clockTimer ∉ readAddrs (.ldRI .mx 1) (busy.setX 0xF00) := by decide

/-- An instruction that reads and stores, at a display cell; it emits there. -/
theorem test_witness_AccessesHaveTheirAddressEffects : Memory.wf busy.mem = true ∧
    (match exec (.addRI .my 1) busy with
      | .next t => t.outputs.length == 4 && (accessed (.addRI .my 1) busy t).outputs == t.outputs
      | _ => false) = true := by decide

/-- Every address of the I/O range is an I/O access with the default ranges. -/
theorem ioAccess_busy (k : DataAddr) (h1 : 0xF00 ≤ k.toNat) (h2 : k.toNat ≤ 0xF7F) : busy.ioAccess k = true := by
  have hm : busy.params.map = standardMap := by decide
  simp only [State.ioAccess, State.inRam, State.inDisplay, State.inIo, Range.holds, hm, standardMap]
  simp
  omega

theorem test_witness_MaskRegistersReadStraightWriteSwapped :
    ∀ k : DataAddr, 0xF10 ≤ k.toNat → k.toNat ≤ 0xF15 → busy.ioAccess k = true :=
  fun k h1 h2 => ioAccess_busy k (by omega) (by omega)
theorem test_witness_TimerAndPortRegistersReadAndWrite :
    (∀ k : DataAddr, 0xF24 ≤ k.toNat → k.toNat ≤ 0xF7F → busy.ioAccess k = true) ∧
    (0xF7F : DataAddr) ∉ [(0xF78 : DataAddr), 0xF75] := ⟨fun k h1 h2 => ioAccess_busy k (by omega) h2, by decide⟩

/-- The frame is plain; the cells next to it, and an address without a cell. -/
theorem test_witness_InterruptEntryFollowsTheRule : Memory.wf busy.mem = true ∧
    (∀ k ∈ pushFrame busy, busy.ioAccess k = false) ∧ pushFrame busy = [0x3F, 0x3E, 0x3D] ∧
    (0x40 : DataAddr) ∉ pushFrame busy ∧ (0x3C : DataAddr) ∉ pushFrame busy ∧ busy.backed 0x280 = false :=
  ⟨by decide, fun k hk => (plainFrame_busy.2 k hk).2, by decide, by decide, by decide, by decide⟩
theorem test_witness_ReturnUndoesInterruptEntry : Memory.wf busy.mem = true ∧ PlainFrame busy ∧
    pcBank 0x010C = pcBank busy.pc := ⟨by decide, plainFrame_busy, by decide⟩

/-- No slot, and two slots, triggered. -/
theorem test_witness_EveryTriggeredSlotIsServiced : triggeredSlots busy = [] ∧
    (triggeredSlots ((busy.setTriggered .clockTimer true).setTriggered .progTimer true)).getLast? = some .clockTimer := by
  decide

/-- One tick before the first period, and at it. -/
theorem test_witness_ClockTimerAppliesEveryPeriod : 0 < busy.params.clkPeriod ∧
    (busy.setTicks 32767).clkStamp ≤ (busy.setTicks 32767).ticks ∧
    elapsedPeriods 32768 32767 0 = 0 ∧ elapsedPeriods 32768 32768 0 = 1 := by decide

/-- Enabled with a count of 2: one period, then the second, which reaches 0; and disabled. -/
theorem test_witness_ProgrammableTimerCountsDownAndReloads : 0 < busy.params.progPeriod ∧ busy.ptStamp ≤ busy.ticks ∧
    busy.ptEnabled = false ∧ (busy.setPtEnabled true).ptEnabled = true ∧
    elapsedPeriods 128 255 0 = 1 ∧ elapsedPeriods 128 256 0 = 2 := by decide

/-- The reset state meets the invariant, and so does a state with cells listed. -/
theorem test_witness_InvariantKeptByEveryStep : busyCall.Inv ∧
    (match step busyCall with | .next _ => true | _ => false) = true := by
  refine ⟨⟨?_, ?_, ?_, ?_, ?_, ?_, ?_, ?_, ?_, ?_, ?_, ?_⟩, ?_⟩ <;> decide
theorem test_witness_InvariantKeptByEveryHostEvent : busyCall.Inv := test_witness_InvariantKeptByEveryStep.1
theorem test_witness_DecodeOfEncode : (Instr.rlc 2 .b).wellFormed = true := by decide

/-- The ends of the ranges of R68 below 0xFC0. -/
theorem test_witness_LegalWordsAreEncodings_illegal_low :
    decode 0xE9C = .error (.noDescriptor 0xE9C) ∧ decode 0xE9F = .error (.noDescriptor 0xE9F) ∧
    decode 0xEAC = .error (.noDescriptor 0xEAC) ∧ decode 0xEAF = .error (.noDescriptor 0xEAF) ∧
    decode 0xEBC = .error (.noDescriptor 0xEBC) ∧ decode 0xEBF = .error (.noDescriptor 0xEBF) ∧
    decode 0xED0 = .error (.noDescriptor 0xED0) ∧ decode 0xEDF = .error (.noDescriptor 0xEDF) ∧
    decode 0xF20 = .error (.noDescriptor 0xF20) ∧ decode 0xF27 = .error (.noDescriptor 0xF27) ∧
    decode 0xF30 = .error (.noDescriptor 0xF30) ∧ decode 0xF37 = .error (.noDescriptor 0xF37) := by decide

/-- The ends of the others. -/
theorem test_witness_LegalWordsAreEncodings_illegal_high :
    decode 0xFCC = .error (.noDescriptor 0xFCC) ∧ decode 0xFCF = .error (.noDescriptor 0xFCF) ∧
    decode 0xFDC = .error (.noDescriptor 0xFDC) ∧ decode 0xFDD = .error (.noDescriptor 0xFDD) ∧
    decode 0xFE9 = .error (.noDescriptor 0xFE9) ∧ decode 0xFEF = .error (.noDescriptor 0xFEF) ∧
    decode 0xFFA = .error (.noDescriptor 0xFFA) ∧ decode 0xFFC = .error (.noDescriptor 0xFFC) ∧
    decode 0xFFE = .error (.noDescriptor 0xFFE) := by decide

/-- Their legal neighbours. -/
theorem test_witness_LegalWordsAreEncodings_legal_low :
    decode 0xE9B ≠ .error (.noDescriptor 0xE9B) ∧ decode 0xEA0 ≠ .error (.noDescriptor 0xEA0) ∧
    decode 0xEAB ≠ .error (.noDescriptor 0xEAB) ∧ decode 0xEB0 ≠ .error (.noDescriptor 0xEB0) ∧
    decode 0xEBB ≠ .error (.noDescriptor 0xEBB) ∧ decode 0xEC0 ≠ .error (.noDescriptor 0xEC0) ∧
    decode 0xECF ≠ .error (.noDescriptor 0xECF) ∧ decode 0xEE0 ≠ .error (.noDescriptor 0xEE0) ∧
    decode 0xF1F ≠ .error (.noDescriptor 0xF1F) ∧ decode 0xF28 ≠ .error (.noDescriptor 0xF28) ∧
    decode 0xF2F ≠ .error (.noDescriptor 0xF2F) ∧ decode 0xF38 ≠ .error (.noDescriptor 0xF38) := by decide

/-- Their legal neighbours. -/
theorem test_witness_LegalWordsAreEncodings_legal_high :
    decode 0xFCB ≠ .error (.noDescriptor 0xFCB) ∧ decode 0xFD0 ≠ .error (.noDescriptor 0xFD0) ∧
    decode 0xFDB ≠ .error (.noDescriptor 0xFDB) ∧ decode 0xFDE ≠ .error (.noDescriptor 0xFDE) ∧
    decode 0xFE8 ≠ .error (.noDescriptor 0xFE8) ∧ decode 0xFF0 ≠ .error (.noDescriptor 0xFF0) ∧
    decode 0xFF9 ≠ .error (.noDescriptor 0xFF9) ∧ decode 0xFFB ≠ .error (.noDescriptor 0xFFB) ∧
    decode 0xFFF ≠ .error (.noDescriptor 0xFFF) := by decide

end Sys2Proof.Tests
end

section
/-! Settles the loads (spec/44_transfer.md R160, R161) and the operand table they rest on (spec/10_state.md R13). -/

namespace Sys2Proof

/-! ### The words of the loads (R66) -/

theorem Reg.ofCode_code (r : Reg) : Reg.ofCode r.code = r := by
  cases r <;> rfl

/-- Over the 64 words of the row: no earlier row takes one of them. -/
theorem decode_ldRI_ofCode : ∀ (c : BitVec 2) (imm : Nibble),
    decode (0b111000#6 ++ c ++ imm) = .ok (.ldRI (Reg.ofCode c) imm) := by decide

/-- Over the 16 words of the row: no earlier row takes one of them. -/
theorem decode_ldRQ_ofCode : ∀ c d : BitVec 2,
    decode (0b11101100#8 ++ c ++ d) = .ok (.ldRQ (Reg.ofCode c) (Reg.ofCode d)) := by decide

theorem decode_ldRI (r : Reg) (imm : Nibble) : decode (0b111000#6 ++ r.code ++ imm) = .ok (.ldRI r imm) := by
  rw [decode_ldRI_ofCode, Reg.ofCode_code]

theorem decode_ldRQ (r q : Reg) : decode (0b11101100#8 ++ r.code ++ q.code) = .ok (.ldRQ r q) := by
  rw [decode_ldRQ_ofCode, Reg.ofCode_code, Reg.ofCode_code]

end Sys2Proof

namespace Sys2Proof.Machine

/-! ### The operand table (R13), one equation per code and access -/

@[simp] theorem readReg_a (s : State) : readReg .a s = (s.a, s) := rfl
@[simp] theorem readReg_b (s : State) : readReg .b s = (s.b, s) := rfl
@[simp] theorem readReg_mx (s : State) : readReg .mx s = memRead s.x s := rfl
@[simp] theorem readReg_my (s : State) : readReg .my s = memRead s.y s := rfl

@[simp] theorem regValue_a (s : State) : regValue .a s = s.a := rfl
@[simp] theorem regValue_b (s : State) : regValue .b s = s.b := rfl
@[simp] theorem regValue_mx (s : State) : regValue .mx s = (memRead s.x s).1 := rfl
@[simp] theorem regValue_my (s : State) : regValue .my s = (memRead s.y s).1 := rfl

@[simp] theorem writeReg_a (v : Nibble) (s : State) : writeReg .a v s = s.setA v := rfl
@[simp] theorem writeReg_b (v : Nibble) (s : State) : writeReg .b v s = s.setB v := rfl
@[simp] theorem writeReg_mx (v : Nibble) (s : State) : writeReg .mx v s = memWrite s.x v s := rfl
@[simp] theorem writeReg_my (v : Nibble) (s : State) : writeReg .my v s = memWrite s.y v s := rfl

/-! ### What the loads do (R160, R161) -/

theorem exec_ldRI (r : Reg) (imm : Nibble) (s : State) : exec (.ldRI r imm) s = .next (writeReg r imm s) := rfl

theorem exec_ldRQ (r q : Reg) (s : State) :
    exec (.ldRQ r q) s = .next (writeReg r (regValue q s) (readReg q s).2) := rfl

/-- `LD r,q` is the read of `q` followed by `LD r,i` with the value read (R161). -/
theorem exec_ldRQ_eq_exec_ldRI (r q : Reg) (s : State) :
    exec (.ldRQ r q) s = exec (.ldRI r (regValue q s)) (readReg q s).2 := by
  rw [exec_ldRQ, exec_ldRI]

/-- The read of `q` moves neither the cells nor the index registers, so after it the write still goes to the operand that
`r` names in the state the instruction starts in. -/
theorem regReceives_writeReg_readReg (r q : Reg) (v : Nibble) (s : State) (hw : Memory.wf s.mem = true) :
    regReceives r v s (writeReg r v (readReg q s).2) := by
  apply regReceives_writeReg r v s _ hw <;> simp only [readReg_keeps]

theorem exec_ldRI_receives (r : Reg) (imm : Nibble) (s : State) (hw : Memory.wf s.mem = true) :
    ∃ t, exec (.ldRI r imm) s = .next t ∧ regReceives r imm s t ∧ t.f = s.f :=
  ⟨_, exec_ldRI r imm s, regReceives_writeReg r imm s s hw rfl rfl rfl rfl, by simp only [writeReg_keeps]⟩

theorem exec_ldRQ_receives (r q : Reg) (s : State) (hw : Memory.wf s.mem = true) :
    ∃ t, exec (.ldRQ r q) s = .next t ∧ regReceives r (regValue q s) s t ∧ t.f = s.f :=
  ⟨_, exec_ldRQ r q s, regReceives_writeReg_readReg r q _ s hw, by simp only [writeReg_keeps, readReg_keeps]⟩

/-- Settles O12: the operand table row by row, then the words and the effects of the two loads. -/
theorem loadsCopyTheirSource : Obligations.LoadsCopyTheirSource := by
  intro r q imm s hw
  have effects : (readReg .a s).2 = s ∧ (readReg .b s).2 = s ∧ (readReg .mx s).2 = (memRead s.x s).2 ∧
      (readReg .my s).2 = (memRead s.y s).2 := by simp
  have stores : exec (.ldRI .a imm) s = .next (s.setA imm) ∧ exec (.ldRI .b imm) s = .next (s.setB imm) ∧
      exec (.ldRI .mx imm) s = .next (memWrite s.x imm s) ∧ exec (.ldRI .my imm) s = .next (memWrite s.y imm s) := by
    simp [exec_ldRI]
  obtain ⟨effectA, effectB, effectMX, effectMY⟩ := effects
  obtain ⟨storeA, storeB, storeMX, storeMY⟩ := stores
  exact ⟨rfl, rfl, rfl, rfl, regValue_a s, regValue_b s, regValue_mx s, regValue_my s,
    effectA, effectB, effectMX, effectMY, decode_ldRI r imm, decode_ldRQ r q, storeA, storeB, storeMX, storeMY,
    exec_ldRQ_eq_exec_ldRI r q s, exec_ldRI_receives r imm s hw, exec_ldRQ_receives r q s hw⟩

end Sys2Proof.Machine
end

section
/-! Settles the LCD events of a data write (spec/20_memory.md R44, R47). -/

namespace Sys2Proof.Machine

/-! ### The event list of `LcdProject` (R47) -/

/-- The segment and the common lines as arithmetic on the address: `addr[6:1]`, `addr[7]` and `addr[0]` are digits of it. -/
theorem lcdEvents_eq_map_range (a : DataAddr) (n : Nibble) :
    lcdEvents a n = (List.range 4).map (fun j =>
      .lcdPin (a.toNat / 2 % 64) (8 * (a.toNat / 128 % 2) + 4 * (a.toNat % 2) + j) (n.getLsbD j)) := by
  have segment : (a.extractLsb' 1 6).toNat = a.toNat / 2 % 64 := by
    simp [BitVec.extractLsb'_toNat, Nat.shiftRight_eq_div_pow]
  have bank : (a.extractLsb' 7 1).toNat = a.toNat / 128 % 2 := by
    simp [BitVec.extractLsb'_toNat, Nat.shiftRight_eq_div_pow]
  have parity : (a.extractLsb' 0 1).toNat = a.toNat % 2 := by
    simp [BitVec.extractLsb'_toNat]
  simp only [lcdEvents, segment, bank, parity]
  rfl

/-! ### What a display write and a RAM write emit (R44) -/

@[simp] theorem emit_outputs (s : State) (es : List Event) : (s.emit es).outputs = s.outputs ++ es := by
  simp [State.emit]

theorem memWrite_of_displayAccess (a : DataAddr) (n : Nibble) (s : State) (h : s.displayAccess a = true) :
    memWrite a n s = (s.setCell a n).emit (lcdEvents a n) := by
  obtain ⟨notRam, display⟩ : s.inRam a = false ∧ s.inDisplay a = true := by simpa [State.displayAccess] using h
  simp [memWrite, notRam, display]

theorem memWrite_outputs_of_displayAccess (a : DataAddr) (n : Nibble) (s : State) (h : s.displayAccess a = true) :
    (memWrite a n s).outputs = s.outputs ++ lcdEvents a n := by
  rw [memWrite_of_displayAccess a n s h]
  simp

theorem memWrite_outputs_of_inRam (a : DataAddr) (n : Nibble) (s : State) (h : s.inRam a = true) :
    (memWrite a n s).outputs = s.outputs := by
  have notIo : s.ioAccess a = false := by simp [State.ioAccess, h]
  have notDisplay : s.displayAccess a = false := by simp [State.displayAccess, h]
  exact memWrite_outputs a n s notIo notDisplay

/-- Settles O41: each of R44's two cases by the lemma of what it emits, and the events of R47 as arithmetic. -/
theorem displayWritesReachTheLcd : Obligations.DisplayWritesReachTheLcd := by
  intro s k n
  refine ⟨fun display => ?_, memWrite_outputs_of_inRam k n s⟩
  rw [memWrite_outputs_of_displayAccess k n s display, lcdEvents_eq_map_range]

end Sys2Proof.Machine
end

section
/-! Settles the converse round trip of the encoding and the list of illegal words (spec/30_encoding.md R62, R63, R66, R68). -/

namespace Sys2Proof

/-! ### Operand fields are placed where they were taken from (R63, R66) -/

@[simp] theorem Reg.code_ofCode : ∀ c : BitVec 2, (Reg.ofCode c).code = c := by decide

/-- The premise: the mask `m` lies within the `n` bits from position `lo` up, so the width of the operand cuts nothing off. -/
theorem place_field {n : Nat} (w m : InstrWord) (lo : Nat) (hm : m &&& place (BitVec.allOnes n) lo = m) :
    place (((w &&& m) >>> lo).setWidth n) lo = w &&& m := by
  apply BitVec.eq_of_getLsbD_eq
  intro k hk
  have bit : m.getLsbD k = (m &&& place (BitVec.allOnes n) lo).getLsbD k := by rw [hm]
  simp only [place, BitVec.getLsbD_and, BitVec.getLsbD_shiftLeft, BitVec.getLsbD_setWidth, BitVec.getLsbD_allOnes,
    BitVec.getLsbD_ushiftRight] at bit ⊢
  grind

theorem place_low_field {n : Nat} (w m : InstrWord) (hm : m &&& place (BitVec.allOnes n) 0 = m) :
    place ((w &&& m).setWidth n) 0 = w &&& m := by
  simpa using place_field w m 0 hm

theorem or_fields (c w m m' : InstrWord) : c ||| w &&& m ||| w &&& m' = c ||| w &&& (m ||| m') := by
  rw [BitVec.or_assoc, ← BitVec.and_or_distrib_left]

/-- `RLC` is the one row that splits its first argument in two, the ignored bits `d` and the operand (R65). -/
theorem or_rlc_fields (c w : InstrWord) :
    c ||| place ((w &&& 0x00F#12).extractLsb' 2 2) 2 ||| place ((w &&& 0x00F#12).setWidth 2) 0 = c ||| w &&& 0x00F#12 := by
  have ignored : (w &&& 0x00F#12).extractLsb' 2 2 = ((w &&& 0x00C#12) >>> (2 : Nat)).setWidth 2 := by
    ext k hk
    interval_cases k <;> simp
  have operand : (w &&& 0x00F#12).setWidth 2 = (w &&& 0x003#12).setWidth 2 := by
    ext k hk
    interval_cases k <;> simp
  rw [ignored, operand, place_field w 0x00C#12 2 (by decide), place_low_field w 0x003#12 (by decide), or_fields]
  rfl

/-! ### The row that decodes a word gives the word back -/

/-- The instruction a row reads out of a word. -/
def Descriptor.instrOf (d : Descriptor) (w : InstrWord) : Instr :=
  d.build (extractArgs w d).1 (extractArgs w d).2

theorem decode_eq_ok_iff (w : InstrWord) (i : Instr) :
    decode w = .ok i ↔ ∃ d, opcodeTable.find? (fun d => d.matchesWord w) = some d ∧ d.instrOf w = i := by
  unfold decode
  cases opcodeTable.find? (fun d => d.matchesWord w) <;> simp [Descriptor.instrOf]

/-- The encoder puts the bits a row leaves variable back into the row's code, whether or not the row matches the word. -/
def Descriptor.Restores (d : Descriptor) : Prop :=
  ∀ w, encode (d.instrOf w) = d.code ||| w &&& ~~~d.mask

/-! One lemma per shape of row (the formats of R64). The premises, that the encoder has the row's code and places, and that the
masks fit the operands' widths, hold by evaluation for every row of the shape. -/

theorem restores_fixed {name : String} {code : InstrWord} {cycles : Nat} {i : Instr} (word : encode i = code := by rfl) :
    Descriptor.Restores ⟨name, code, 0xFFF, 0, 0, cycles, fun _ _ => i⟩ := by
  intro w
  simp [Descriptor.instrOf, word]

theorem restores_imm {name : String} {code mask : InstrWord} {lo cycles n : Nat} {f : BitVec n → Instr}
    (word : ∀ v, encode (f v) = code ||| place v lo := by intro _; rfl)
    (within : ~~~mask &&& place (BitVec.allOnes n) lo = ~~~mask := by rfl) :
    Descriptor.Restores ⟨name, code, mask, 0, lo, cycles, fun a _ => f (a.setWidth n)⟩ := by
  intro w
  simp only [Descriptor.instrOf, extractArgs, ne_eq, not_true_eq_false, if_false, word]
  rw [place_field w _ lo within]

theorem restores_reg {name : String} {code mask : InstrWord} {lo cycles : Nat} {f : Reg → Instr}
    (word : ∀ r, encode (f r) = code ||| place r.code lo := by intro _; rfl)
    (within : ~~~mask &&& place (BitVec.allOnes 2) lo = ~~~mask := by rfl) :
    Descriptor.Restores ⟨name, code, mask, 0, lo, cycles, fun a _ => f (Reg.ofCode (a.setWidth 2))⟩ :=
  restores_imm (f := fun c => f (Reg.ofCode c)) (fun c => by rw [word, Reg.code_ofCode]) within

theorem restores_regImm {name : String} {code mask mask₀ : InstrWord} {lo cycles n : Nat} {f : Reg → BitVec n → Instr}
    (word : ∀ r v, encode (f r v) = code ||| place r.code lo ||| place v 0 := by intro _ _; rfl)
    (two : mask₀ ≠ 0 := by decide)
    (within₀ : mask₀ &&& place (BitVec.allOnes 2) lo = mask₀ := by rfl)
    (within₁ : ~~~(mask ||| mask₀) &&& place (BitVec.allOnes n) 0 = ~~~(mask ||| mask₀) := by rfl)
    (fields : mask₀ ||| ~~~(mask ||| mask₀) = ~~~mask := by rfl) :
    Descriptor.Restores ⟨name, code, mask, mask₀, lo, cycles, fun a b => f (Reg.ofCode (a.setWidth 2)) (b.setWidth n)⟩ := by
  intro w
  simp only [Descriptor.instrOf, extractArgs, if_pos two, word, Reg.code_ofCode]
  rw [place_field w _ lo within₀, place_low_field w _ within₁, or_fields, fields]

theorem restores_regReg {name : String} {code mask mask₀ : InstrWord} {lo cycles : Nat} {f : Reg → Reg → Instr}
    (word : ∀ r q, encode (f r q) = code ||| place r.code lo ||| place q.code 0 := by intro _ _; rfl)
    (two : mask₀ ≠ 0 := by decide)
    (within₀ : mask₀ &&& place (BitVec.allOnes 2) lo = mask₀ := by rfl)
    (within₁ : ~~~(mask ||| mask₀) &&& place (BitVec.allOnes 2) 0 = ~~~(mask ||| mask₀) := by rfl)
    (fields : mask₀ ||| ~~~(mask ||| mask₀) = ~~~mask := by rfl) :
    Descriptor.Restores ⟨name, code, mask, mask₀, lo, cycles,
      fun a b => f (Reg.ofCode (a.setWidth 2)) (Reg.ofCode (b.setWidth 2))⟩ :=
  restores_regImm (f := fun r c => f r (Reg.ofCode c)) (fun r c => by rw [word, Reg.code_ofCode]) two within₀ within₁ fields

theorem restores_rlc {name : String} {cycles : Nat} :
    Descriptor.Restores ⟨name, 0xAF0, 0xFF0, 0, 0, cycles,
      fun a _ => .rlc (a.extractLsb' 2 2) (Reg.ofCode (a.setWidth 2))⟩ := by
  intro w
  simpa [Descriptor.instrOf, extractArgs, encode, -BitVec.setWidth_and] using or_rlc_fields 0xAF0 w

/-! Which shape each row has, family by family in the order of R66. -/

theorem restores_of_mem_branchRows : ∀ d ∈ branchRows, d.Restores := by
  simp only [branchRows, List.forall_mem_cons]
  exact ⟨restores_imm, restores_imm, restores_imm, restores_imm, restores_imm, restores_imm, restores_fixed,
    restores_imm, restores_imm, restores_fixed, restores_fixed, restores_imm, List.forall_mem_nil _⟩

theorem restores_of_mem_systemRows : ∀ d ∈ systemRows, d.Restores := by
  simp only [systemRows, List.forall_mem_cons]
  exact ⟨restores_fixed, restores_fixed, restores_fixed, restores_fixed, List.forall_mem_nil _⟩

theorem restores_of_mem_indexRowsA : ∀ d ∈ indexRowsA, d.Restores := by
  simp only [indexRowsA, List.forall_mem_cons]
  exact ⟨restores_fixed, restores_fixed, restores_imm, restores_imm, restores_reg, restores_reg, restores_reg,
    restores_reg, restores_reg, restores_reg, restores_reg, restores_reg, restores_reg, List.forall_mem_nil _⟩

theorem restores_of_mem_indexRowsB : ∀ d ∈ indexRowsB, d.Restores := by
  simp only [indexRowsB, List.forall_mem_cons]
  exact ⟨restores_reg, restores_reg, restores_reg, restores_imm, restores_imm, restores_imm, restores_imm,
    restores_imm, restores_imm, restores_imm, restores_imm, List.forall_mem_nil _⟩

theorem restores_of_mem_transferRows : ∀ d ∈ transferRows, d.Restores := by
  simp only [transferRows, List.forall_mem_cons]
  exact ⟨restores_regImm, restores_regReg, restores_imm, restores_imm, restores_imm, restores_imm, restores_imm,
    restores_regReg, restores_imm, restores_regReg, restores_imm, List.forall_mem_nil _⟩

theorem restores_of_mem_flagRows : ∀ d ∈ flagRows, d.Restores := by
  simp only [flagRows, List.forall_mem_cons]
  exact ⟨restores_fixed, restores_fixed, restores_fixed, restores_fixed, restores_imm, restores_fixed, restores_fixed,
    restores_fixed, restores_fixed, restores_imm, List.forall_mem_nil _⟩

theorem restores_of_mem_stackRowsA : ∀ d ∈ stackRowsA, d.Restores := by
  simp only [stackRowsA, List.forall_mem_cons]
  exact ⟨restores_fixed, restores_fixed, restores_reg, restores_fixed, restores_fixed, restores_fixed, restores_fixed,
    restores_fixed, restores_fixed, restores_fixed, restores_reg, restores_fixed, restores_fixed,
    List.forall_mem_nil _⟩

theorem restores_of_mem_stackRowsB : ∀ d ∈ stackRowsB, d.Restores := by
  simp only [stackRowsB, List.forall_mem_cons]
  exact ⟨restores_fixed, restores_fixed, restores_fixed, restores_fixed, restores_fixed, restores_reg, restores_reg,
    restores_reg, restores_reg, List.forall_mem_nil _⟩

theorem restores_of_mem_arithRowsA : ∀ d ∈ arithRowsA, d.Restores := by
  simp only [arithRowsA, List.forall_mem_cons]
  exact ⟨restores_regImm, restores_regReg, restores_regImm, restores_regReg, restores_regReg, restores_regImm,
    restores_regReg, restores_regImm, restores_regReg, restores_regImm, restores_regReg, restores_reg,
    restores_regImm, List.forall_mem_nil _⟩

theorem restores_of_mem_arithRowsB : ∀ d ∈ arithRowsB, d.Restores := by
  simp only [arithRowsB, List.forall_mem_cons]
  exact ⟨restores_regReg, restores_regImm, restores_regReg, restores_regImm, restores_regReg, restores_rlc,
    restores_reg, restores_imm, restores_imm, restores_reg, restores_reg, restores_reg, restores_reg,
    List.forall_mem_nil _⟩

theorem restores_of_mem_opcodeTable : ∀ d ∈ opcodeTable, d.Restores := by
  simp only [opcodeTable, List.forall_mem_append]
  exact ⟨⟨⟨⟨⟨⟨⟨⟨⟨restores_of_mem_branchRows, restores_of_mem_systemRows⟩, restores_of_mem_indexRowsA⟩,
    restores_of_mem_indexRowsB⟩, restores_of_mem_transferRows⟩, restores_of_mem_flagRows⟩, restores_of_mem_stackRowsA⟩,
    restores_of_mem_stackRowsB⟩, restores_of_mem_arithRowsA⟩, restores_of_mem_arithRowsB⟩

theorem encode_instrOf (d : Descriptor) (hd : d ∈ opcodeTable) (w : InstrWord) (hw : w &&& d.mask = d.code) :
    encode (d.instrOf w) = w := by
  rw [restores_of_mem_opcodeTable d hd w, ← hw, ← BitVec.and_or_distrib_left, BitVec.or_not_self, BitVec.and_allOnes]

theorem encode_of_decode (w : InstrWord) (i : Instr) (h : decode w = .ok i) : encode i = w := by
  obtain ⟨d, found, rfl⟩ := (decode_eq_ok_iff w i).mp h
  have matched : w &&& d.mask = d.code := by simpa [Descriptor.matchesWord] using List.find?_some found
  exact encode_instrOf d (List.mem_of_find?_eq_some found) w matched

/-! ### No word decodes to a shadowed form (R67) -/

/-- The fourteen later spellings of R67. -/
def shadowedForms : List Instr :=
  [.xorRI .a 0xF, .xorRI .b 0xF, .xorRI .mx 0xF, .xorRI .my 0xF, .ldpxRQ .a .a, .ldpyRQ .a .a,
    .setF 1, .setF 2, .setF 4, .setF 8, .rstF 0xE, .rstF 0xD, .rstF 0xB, .rstF 0x7]

theorem mem_shadowedForms (i : Instr) (h : i.wellFormed = false) : i ∈ shadowedForms := by
  cases i with
  | xorRI r imm => cases r <;> (revert imm; decide)
  | ldpxRQ r q => revert h; cases r <;> cases q <;> decide
  | ldpyRQ r q => revert h; cases r <;> cases q <;> decide
  | setF imm => revert imm; decide
  | rstF imm => revert imm; decide
  | _ => contradiction

theorem decode_encode_ne_of_mem_shadowedForms : ∀ i ∈ shadowedForms, decode (encode i) ≠ .ok i := by decide

theorem wellFormed_of_decode_encode (i : Instr) (h : decode (encode i) = .ok i) : i.wellFormed = true := by
  by_contra shadowed
  exact decode_encode_ne_of_mem_shadowedForms i (mem_shadowedForms i (by simpa using shadowed)) h

/-! ### The illegal words (R68)

A mask and a code stand for the words `w` with `w &&& mask = code`: a row of the table is such a pattern, and so is a block of
words with the same leading bits. Both lie between their least and their greatest word. -/

/-- The ranges of R68, both ends inclusive. -/
def illegalRanges : List (Nat × Nat) :=
  [(0xE9C, 0xE9F), (0xEAC, 0xEAF), (0xEBC, 0xEBF), (0xED0, 0xEDF), (0xF20, 0xF27), (0xF30, 0xF37), (0xFCC, 0xFCF),
    (0xFDC, 0xFDD), (0xFE9, 0xFEF), (0xFFA, 0xFFA), (0xFFC, 0xFFE)]

/-- The word stands in the table of R68. -/
def InIllegalRange (w : InstrWord) : Prop :=
  ∃ r ∈ illegalRanges, r.1 ≤ w.toNat ∧ w.toNat ≤ r.2

theorem forall_decode_ne_ok_iff (w : InstrWord) :
    (∀ i, decode w ≠ .ok i) ↔ ∀ d ∈ opcodeTable, w &&& d.mask ≠ d.code := by
  have unmatched : (∀ i, decode w ≠ .ok i) ↔ opcodeTable.find? (fun d => d.matchesWord w) = none := by
    simp only [ne_eq, decode_eq_ok_iff]
    cases opcodeTable.find? (fun d => d.matchesWord w) <;> simp
  rw [unmatched, List.find?_eq_none]
  simp [Descriptor.matchesWord]

theorem toNat_bounds_of_pattern (w m c : InstrWord) (h : w &&& m = c) :
    c.toNat ≤ w.toNat ∧ w.toNat ≤ (c ||| ~~~m).toNat := by
  have greatest : c ||| ~~~m = w ||| ~~~m := by
    ext k hk
    simp [← h, Bool.or_and_distrib_right]
  rw [greatest, ← h, BitVec.toNat_and, BitVec.toNat_or]
  exact ⟨Nat.and_le_left, Nat.left_le_or⟩

/-- Row by row, against the interval between the row's least and greatest word. -/
theorem rows_avoid_illegalRanges : ∀ d ∈ opcodeTable, ∀ r ∈ illegalRanges,
    (d.code ||| ~~~d.mask).toNat < r.1 ∨ r.2 < d.code.toNat := by decide

theorem not_matches_of_inIllegalRange (w : InstrWord) (h : InIllegalRange w) :
    ∀ d ∈ opcodeTable, w &&& d.mask ≠ d.code := by
  intro d hd matched
  obtain ⟨r, hr, lower, upper⟩ := h
  have bounds := toNat_bounds_of_pattern w d.mask d.code matched
  have apart := rows_avoid_illegalRanges d hd r hr
  omega

/-- One row takes every word of the pattern, or one range of R68 holds them all. -/
def patternDecided (m c : InstrWord) : Bool :=
  opcodeTable.any (fun d => decide (m &&& d.mask = d.mask) && decide (c &&& d.mask = d.code)) ||
    illegalRanges.any (fun r => decide (r.1 ≤ c.toNat) && decide ((c ||| ~~~m).toNat ≤ r.2))

/-- Fixing the bits `n - 1` down to 0 one after the other, no further than needed, splits the pattern into decided ones: the
opcode map of section 3, read from the leading bit down. -/
def decidedBySplitting : Nat → InstrWord → InstrWord → Bool
  | 0, m, c => patternDecided m c
  | n + 1, m, c => patternDecided m c ||
      decidedBySplitting n (m ||| .twoPow 12 n) c && decidedBySplitting n (m ||| .twoPow 12 n) (c ||| .twoPow 12 n)

theorem matches_or_inIllegalRange_of_patternDecided (w m c : InstrWord) (h : w &&& m = c)
    (decided : patternDecided m c = true) : (∃ d ∈ opcodeTable, w &&& d.mask = d.code) ∨ InIllegalRange w := by
  simp only [patternDecided, Bool.or_eq_true, List.any_eq_true, Bool.and_eq_true, decide_eq_true_eq] at decided
  obtain ⟨d, hd, contained, taken⟩ | ⟨r, hr, lower, upper⟩ := decided
  · refine .inl ⟨d, hd, ?_⟩
    rw [← taken, ← h, BitVec.and_assoc, contained]
  · have bounds := toNat_bounds_of_pattern w m c h
    exact .inr ⟨r, hr, by omega, by omega⟩

theorem pattern_splits (w m c : InstrWord) (n : Nat) (h : w &&& m = c) :
    w &&& (m ||| .twoPow 12 n) = c ∨ w &&& (m ||| .twoPow 12 n) = c ||| .twoPow 12 n := by
  rw [BitVec.and_or_distrib_left, h, BitVec.and_twoPow]
  split <;> simp

theorem matches_or_inIllegalRange_of_splitting (w : InstrWord) (n : Nat) : ∀ m c, w &&& m = c →
    decidedBySplitting n m c = true → (∃ d ∈ opcodeTable, w &&& d.mask = d.code) ∨ InIllegalRange w := by
  induction n with
  | zero => exact fun m c h decided => matches_or_inIllegalRange_of_patternDecided w m c h decided
  | succ n ih =>
    intro m c h decided
    simp only [decidedBySplitting, Bool.or_eq_true, Bool.and_eq_true] at decided
    obtain whole | ⟨decidedClear, decidedSet⟩ := decided
    · exact matches_or_inIllegalRange_of_patternDecided w m c h whole
    · obtain bitClear | bitSet := pattern_splits w m c n h
      · exact ih _ _ bitClear decidedClear
      · exact ih _ _ bitSet decidedSet

/-- The opcode map leaves no gap but R68's: the pattern that fixes no bit splits into decided ones. -/
theorem decidedBySplitting_all : decidedBySplitting 12 0 0 = true := by decide

theorem matches_or_inIllegalRange (w : InstrWord) : (∃ d ∈ opcodeTable, w &&& d.mask = d.code) ∨ InIllegalRange w :=
  matches_or_inIllegalRange_of_splitting w 12 0 0 BitVec.and_zero decidedBySplitting_all

theorem forall_decode_ne_ok_iff_inIllegalRange (w : InstrWord) : (∀ i, decode w ≠ .ok i) ↔ InIllegalRange w := by
  rw [forall_decode_ne_ok_iff]
  refine ⟨fun unmatched => ?_, not_matches_of_inIllegalRange w⟩
  obtain ⟨d, hd, matched⟩ | illegal := matches_or_inIllegalRange w
  · exact absurd matched (unmatched d hd)
  · exact illegal

/-- Settles O57: the first matching row gives the word back and is never the later row of R67; the rows and the ranges of R68
are disjoint and together hold every word. -/
theorem legalWordsAreEncodings : Obligations.LegalWordsAreEncodings := by
  refine ⟨fun w i h => ?_, fun w => ?_⟩
  · have word : encode i = w := encode_of_decode w i h
    exact ⟨wellFormed_of_decode_encode i (word ▸ h), word⟩
  · rw [forall_decode_ne_ok_iff_inIllegalRange]
    simp only [InIllegalRange, illegalRanges, List.exists_mem_cons_iff, List.not_mem_nil, false_and, exists_false, or_false]
    omega

end Sys2Proof
end

section
/-! Settles that every instruction completes without a fault (spec/40_execution_cycle.md R93) and that the faults of fetch and
decode, and a step that is not `Ready`, change nothing else (R81, R82, R90). -/

namespace Sys2Proof.Machine

/-! ### No shared shape of the instructions touches `run` -/

@[simp] theorem arithImm_run (op : Adder) (cin : Bool) (r : Reg) (imm : Nibble) (s : State) :
    (arithImm op cin r imm s).run = s.run := by
  simp [arithImm]

@[simp] theorem arithReg_run (op : Adder) (cin : Bool) (r q : Reg) (s : State) :
    (arithReg op cin r q s).run = s.run := by
  simp [arithReg]

@[simp] theorem arithIndexed_run (op : Adder) (k : IndexReg) (r : Reg) (s : State) :
    (arithIndexed op k r s).run = s.run := by
  simp [arithIndexed]

@[simp] theorem logicImm_run (op : Nibble → Nibble → Nibble) (r : Reg) (imm : Nibble) (s : State) :
    (logicImm op r imm s).run = s.run := by
  simp [logicImm]

@[simp] theorem logicReg_run (op : Nibble → Nibble → Nibble) (r q : Reg) (s : State) :
    (logicReg op r q s).run = s.run := by
  simp [logicReg]

@[simp] theorem rotateReg_run (op : Nibble → Bool → Nibble × Bool) (r : Reg) (s : State) :
    (rotateReg op r s).run = s.run := by
  simp [rotateReg]

@[simp] theorem jumpIf_run (c : Bool) (dest : Octet) (s : State) : (jumpIf c dest s).run = s.run := by
  cases c <;> rfl

@[simp] theorem loadIdxField_run (put : DataAddr → Nibble → DataAddr) (k : IndexReg) (r : Reg) (s : State) :
    (loadIdxField put k r s).run = s.run := by
  simp [loadIdxField]

@[simp] theorem storeIdxField_run (get : DataAddr → Nibble) (k : IndexReg) (r : Reg) (s : State) :
    (storeIdxField get k r s).run = s.run := by
  simp [storeIdxField]

@[simp] theorem adcIdxField_run (get : DataAddr → Nibble) (put : DataAddr → Nibble → DataAddr) (k : IndexReg)
    (imm : Nibble) (s : State) : (adcIdxField get put k imm s).run = s.run := by
  simp [adcIdxField]

@[simp] theorem cpIdxField_run (get : DataAddr → Nibble) (k : IndexReg) (imm : Nibble) (s : State) :
    (cpIdxField get k imm s).run = s.run := by
  simp [cpIdxField]

@[simp] theorem popIdxField_run (put : DataAddr → Nibble → DataAddr) (k : IndexReg) (s : State) :
    (popIdxField put k s).run = s.run := by
  simp [popIdxField]

@[simp] theorem copyReg_run (r q : Reg) (s : State) : (copyReg r q s).run = s.run := by
  simp [copyReg]

@[simp] theorem enterStopped_run (s : State) : (enterStopped s).run = .stopped := by
  simp [enterStopped]

/-! ### What an instruction answers (R93) -/

/-- Every arm of the dispatch is a next state; only `HALT` and `SLP` change `run`, to `Stopped` (R122, R123). -/
theorem exec_next_run (i : Instr) (s : State) :
    ∃ t, exec i s = .next t ∧ t.run = if i = .halt ∨ i = .slp then .stopped else s.run := by
  cases i
  case halt | slp => exact ⟨_, rfl, enterStopped_run s⟩
  all_goals exact ⟨_, rfl, by simp⟩

/-- Settles O27: `run` after an instruction is `Stopped` or what it was, so it is a fault only if it was one. -/
theorem everyInstructionCompletes : Obligations.EveryInstructionCompletes := by
  intro i s
  obtain ⟨t, answers, run⟩ := exec_next_run i s
  refine ⟨t, answers, fun unfaulted r faulted => ?_⟩
  rw [run] at faulted
  split at faulted
  · cases faulted
  · exact unfaulted r faulted

/-! ### The steps that run no instruction (R81, R82) -/

theorem fetch_of_lt (s : State) (h : s.pc.toNat < s.params.romWords) : fetch s = some (s.romWord s.pc) :=
  if_pos h

theorem fetch_of_le (s : State) (h : s.params.romWords ≤ s.pc.toNat) : fetch s = none :=
  if_neg (Nat.not_lt.mpr h)

theorem step_fetchOutOfRange (s : State) (ready : s.run = .ready) (h : s.params.romWords ≤ s.pc.toNat) :
    step s = .next (raiseFault (.fetchOutOfRange s.pc) s) := by
  simp only [step, ready, fetch_of_le s h]

theorem step_decodeFailure (s : State) (ready : s.run = .ready) (h : s.pc.toNat < s.params.romWords)
    (illegal : ∀ i, decode (s.romWord s.pc) ≠ .ok i) :
    step s = .next (raiseFault (.decodeFailure (s.romWord s.pc)) s) := by
  cases decoded : decode (s.romWord s.pc) with
  | error e => simp only [step, ready, fetch_of_lt s h, decoded]
  | ok i => exact absurd decoded (illegal i)

/-- Settles O32: one equation of `step` per clause; `raiseFault` and `idleStep` are the updates the statement writes out. -/
theorem faultsChangeNothingElse : Obligations.FaultsChangeNothingElse :=
  fun s => ⟨step_fetchOutOfRange s, step_decodeFailure s, step_idle s⟩

end Sys2Proof.Machine
end

section
/-! Settles the jumps, the calls and the returns (spec/41_branch.md R101 to R111). -/

namespace Sys2Proof

/-! ### The words of the branches (R66): an opcode nibble and an octet, or one fixed word -/

/-- Could a row match some word with this high nibble? -/
def Descriptor.fitsHighNibble (c : Nibble) (r : Descriptor) : Bool :=
  c &&& r.mask.extractLsb' 8 4 == r.code.extractLsb' 8 4

theorem Descriptor.fitsHighNibble_of_matchesWord (c : Nibble) (d : Octet) (r : Descriptor)
    (h : r.matchesWord (c ++ d) = true) : r.fitsHighNibble c = true := by
  have word : (c ++ d) &&& r.mask = r.code := by simpa [Descriptor.matchesWord] using h
  have high : c = (c ++ d).extractLsb' 8 4 := BitVec.extractLsb'_append_eq_left.symm
  rw [Descriptor.fitsHighNibble, beq_iff_eq, ← word, BitVec.extractLsb'_and, ← high]

/-- Where the first row that fits a high nibble fixes just that nibble, it decodes every word with it: the rows before it
match none, whatever the octet (R62, R63). -/
theorem decode_nibble_append_octet {name : String} {cycles : Nat} {f : Octet → Instr} (c : Nibble) (d : Octet)
    (first : opcodeTable.find? (Descriptor.fitsHighNibble c) =
      some ⟨name, c ++ 0#8, 0xF00, 0, 0, cycles, fun a _ => f (a.setWidth 8)⟩) :
    decode (c ++ d) = .ok (f d) := by
  obtain ⟨-, before, after, table, unfit⟩ := List.find?_eq_some_iff_append.mp first
  have code : (c ++ d) &&& (BitVec.allOnes 4 ++ 0#8) = c ++ 0#8 := by
    rw [BitVec.and_append, BitVec.and_allOnes, BitVec.and_zero]
  have operand : ((c ++ d) &&& (0#4 ++ BitVec.allOnes 8)).setWidth 8 = d := by
    rw [BitVec.and_append, BitVec.and_allOnes, BitVec.setWidth_append_eq_right]
  refine (decode_eq_ok_iff _ _).mpr ⟨_, List.find?_eq_some_iff_append.mpr
    ⟨beq_iff_eq.mpr code, before, after, table, fun r hr => ?_⟩, ?_⟩
  · have unfitting : r.fitsHighNibble c ≠ true := by simpa using unfit r hr
    simpa using mt (r.fitsHighNibble_of_matchesWord c d) unfitting
  · simp only [Descriptor.instrOf, extractArgs, ne_eq, not_true_eq_false, if_false, BitVec.ushiftRight_zero]
    exact congrArg f operand

theorem decode_jp (d : Octet) : decode (0b0000#4 ++ d) = .ok (.jp d) := decode_nibble_append_octet _ d rfl
theorem decode_jpC (d : Octet) : decode (0b0010#4 ++ d) = .ok (.jpC d) := decode_nibble_append_octet _ d rfl
theorem decode_jpNC (d : Octet) : decode (0b0011#4 ++ d) = .ok (.jpNC d) := decode_nibble_append_octet _ d rfl
theorem decode_jpZ (d : Octet) : decode (0b0110#4 ++ d) = .ok (.jpZ d) := decode_nibble_append_octet _ d rfl
theorem decode_jpNZ (d : Octet) : decode (0b0111#4 ++ d) = .ok (.jpNZ d) := decode_nibble_append_octet _ d rfl
theorem decode_call (d : Octet) : decode (0b0100#4 ++ d) = .ok (.call d) := decode_nibble_append_octet _ d rfl
theorem decode_calz (d : Octet) : decode (0b0101#4 ++ d) = .ok (.calz d) := decode_nibble_append_octet _ d rfl
theorem decode_retd (l : Octet) : decode (0b0001#4 ++ l) = .ok (.retd l) := decode_nibble_append_octet _ l rfl

theorem decode_jpba : decode 0xFE8 = .ok .jpba := rfl
theorem decode_ret : decode 0xFDF = .ok .ret := rfl
theorem decode_rets : decode 0xFDE = .ok .rets := rfl

end Sys2Proof

namespace Sys2Proof.Machine

/-! ### What each branch answers -/

theorem exec_jp (d : Octet) (s : State) : exec (.jp d) s = .next (jumpIf true d s) := rfl
theorem exec_jpC (d : Octet) (s : State) : exec (.jpC d) s = .next (jumpIf s.flagC d s) := rfl
theorem exec_jpNC (d : Octet) (s : State) : exec (.jpNC d) s = .next (jumpIf (!s.flagC) d s) := rfl
theorem exec_jpZ (d : Octet) (s : State) : exec (.jpZ d) s = .next (jumpIf s.flagZ d s) := rfl
theorem exec_jpNZ (d : Octet) (s : State) : exec (.jpNZ d) s = .next (jumpIf (!s.flagZ) d s) := rfl

/-- `JPBA` is the jump always taken, to the step that `B` and `A` make up (R106). -/
theorem exec_jpba (s : State) : exec .jpba s = .next (jumpIf true (s.b ++ s.a) s) := rfl

theorem exec_call (d : Octet) (s : State) :
    exec (.call d) s = .next (callTo (codeAddrOf (pcBank s.pc) (npPage s.np) d) s) := rfl
theorem exec_calz (d : Octet) (s : State) : exec (.calz d) s = .next (callTo (codeAddrOf (pcBank s.pc) 0 d) s) := rfl

theorem exec_ret (s : State) : exec .ret s = .next (returnFromCall 0 s) := rfl
theorem exec_rets (s : State) : exec .rets s = .next (returnFromCall 1 s) := rfl
theorem exec_retd (l : Octet) (s : State) : exec (.retd l) s = .next (storePairAtX l (returnFromCall 0 s)) := rfl

/-! ### The jump (R101 to R106) -/

@[simp] theorem jumpIf_f (c : Bool) (d : Octet) (s : State) : (jumpIf c d s).f = s.f := by
  cases c <;> rfl

theorem jumpIf_nextPc_toNat (c : Bool) (d : Octet) (s : State) :
    (jumpIf c d s).nextPc.toNat = if c = true then 256 * s.np.toNat + d.toNat else s.nextPc.toNat := by
  cases c
  case false => rfl
  case true => exact codeAddrOfNp_toNat s.np d

/-- Settles O20: every jump is `jumpIf` with its own condition and step. -/
theorem jumpsGoToTheNewPage : Obligations.JumpsGoToTheNewPage := by
  intro d s
  refine ⟨decode_jp d, decode_jpC d, decode_jpNC d, decode_jpZ d, decode_jpNZ d, decode_jpba,
    ⟨_, exec_jp d s, jumpIf_nextPc_toNat true d s, jumpIf_f _ _ _⟩,
    ⟨_, exec_jpC d s, jumpIf_f _ _ _, jumpIf_nextPc_toNat s.flagC d s⟩,
    ⟨_, exec_jpNC d s, jumpIf_f _ _ _, ?notCarry⟩,
    ⟨_, exec_jpZ d s, jumpIf_f _ _ _, jumpIf_nextPc_toNat s.flagZ d s⟩,
    ⟨_, exec_jpNZ d s, jumpIf_f _ _ _, ?notZero⟩,
    ⟨_, exec_jpba s, ?table, jumpIf_f _ _ _⟩⟩
  case notCarry => simpa using jumpIf_nextPc_toNat (!s.flagC) d s
  case notZero => simpa using jumpIf_nextPc_toNat (!s.flagZ) d s
  case table =>
    rw [jumpIf_nextPc_toNat, if_pos rfl, append_nibbles_toNat, Nat.add_assoc]

/-! ### The call (R107, R108) -/

@[simp] theorem callTo_nextPc (target : CodeAddr) (s : State) : (callTo target s).nextPc = target := by
  simp [callTo]

@[simp] theorem callTo_callDepth (target : CodeAddr) (s : State) :
    (callTo target s).callDepth = s.callDepth + 1 := by
  simp [callTo, State.deeper]

@[simp] theorem callTo_sp (target : CodeAddr) (s : State) : (callTo target s).sp = s.sp - 3 := by
  simp [callTo, pushPC_sp]

theorem callTo_frameHolds (target : CodeAddr) (s : State) (hw : Memory.wf s.mem = true) :
    FrameHolds (s.pc + 1) s (callTo target s) :=
  frameHolds_congr _ _ _ _ (pushPC_holds (s.pc + 1) s hw) (by simp [callTo])

theorem octet_sub_three_toNat (sp : Octet) : (sp - 3).toNat = (sp.toNat + 253) % 256 := by
  bv_omega

/-- What `CALL` and `CALZ` share: the frame, `SP`, the depth and `F`, wherever the call goes. -/
theorem callTo_effect (target : CodeAddr) (s : State) (hw : Memory.wf s.mem = true) :
    FrameHolds (s.pc + 1) s (callTo target s) ∧ (callTo target s).sp.toNat = (s.sp.toNat + 253) % 256 ∧
      (callTo target s).callDepth = s.callDepth + 1 ∧ (callTo target s).f = s.f :=
  ⟨callTo_frameHolds target s hw, by rw [callTo_sp, octet_sub_three_toNat], callTo_callDepth target s, by simp⟩

/-- Settles O21: both calls are `callTo`, with the page `NPP` and the page 0. -/
theorem callsPushTheReturnAddress : Obligations.CallsPushTheReturnAddress := by
  intro d s hw
  obtain ⟨frame, sp, depth, flags⟩ := callTo_effect (codeAddrOf (pcBank s.pc) (npPage s.np) d) s hw
  obtain ⟨frameZ, spZ, depthZ, flagsZ⟩ := callTo_effect (codeAddrOf (pcBank s.pc) 0 d) s hw
  refine ⟨decode_call d, decode_calz d, ⟨_, exec_call d s, frame, sp, depth, flags, ?page⟩,
    ⟨_, exec_calz d s, frameZ, spZ, depthZ, flagsZ, ?pageZero⟩⟩
  case page => rw [callTo_nextPc, codeAddrOf_toNat, pcBank_toNat, npPage_toNat]
  case pageZero => rw [callTo_nextPc, codeAddrOf_toNat, pcBank_toNat]; rfl

/-! ### The return (R109 to R111) -/

@[simp] theorem returnFromCall_sp (skip : CodeAddr) (s : State) : (returnFromCall skip s).sp = s.sp + 3 := by
  simp [returnFromCall, popPC_sp]

@[simp] theorem returnFromCall_callDepth (skip : CodeAddr) (s : State) :
    (returnFromCall skip s).callDepth = s.callDepth - 1 := by
  simp [returnFromCall, State.shallower]

theorem returnFromCall_nextPc (skip : CodeAddr) (s : State) :
    (returnFromCall skip s).nextPc = (popPC s).1 + skip := by
  simp [returnFromCall]

theorem returnFromCall_nextPc_toNat (skip : CodeAddr) (s : State) :
    (returnFromCall skip s).nextPc.toNat = (poppedNumber s + skip.toNat) % 8192 := by
  rw [returnFromCall_nextPc, BitVec.toNat_add, popPC_toNat]

theorem returnFromCall_zero_nextPc_toNat (s : State) : (returnFromCall 0 s).nextPc.toNat = poppedNumber s := by
  rw [returnFromCall_nextPc, add_zero, popPC_toNat]

/-- What the three returns share: `SP`, the depth and `F`, however many words they step over. -/
theorem returnFromCall_effect (skip : CodeAddr) (s : State) :
    (returnFromCall skip s).sp.toNat = (s.sp.toNat + 3) % 256 ∧
      (returnFromCall skip s).callDepth = s.callDepth - 1 ∧ (returnFromCall skip s).f = s.f :=
  ⟨by rw [returnFromCall_sp, BitVec.toNat_add]; rfl, returnFromCall_callDepth skip s, by simp⟩

/-- `RETD` stores its pair at `X` as the return leaves it: a return changes neither the cells nor `X` (R111). -/
theorem pairStored_returnFromCall (l : Octet) (skip : CodeAddr) (s : State) (hw : Memory.wf s.mem = true) :
    PairStored l s (storePairAtX l (returnFromCall skip s)) :=
  pairStored_of l s _ hw (by simp) (by simp) (by simp)

/-- Settles O22: the three returns are `returnFromCall`; the pair store of `RETD` keeps all it set. -/
theorem returnsPopTheReturnAddress : Obligations.ReturnsPopTheReturnAddress := by
  intro l s hw
  obtain ⟨sp, depth, flags⟩ := returnFromCall_effect 0 s
  refine ⟨decode_ret, decode_rets, decode_retd l,
    ⟨_, exec_ret s, returnFromCall_zero_nextPc_toNat s, sp, depth, flags⟩,
    ⟨_, exec_rets s, returnFromCall_nextPc_toNat 1 s, returnFromCall_effect 1 s⟩,
    ⟨_, exec_retd l s, ?_⟩⟩
  simp only [storePairAtX_keeps]
  exact ⟨returnFromCall_zero_nextPc_toNat s, sp, depth, flags, pairStored_returnFromCall l 0 s hw⟩

end Sys2Proof.Machine
end

section
/-! Settles the index-register instructions (spec/43_index.md R130 to R153). -/

namespace Sys2Proof

/-! ### The words of the index family (R66): a fixed word, an octet, an operand code or a nibble -/

theorem decode_incX : decode 0b111011100000 = .ok .incX := rfl
theorem decode_incY : decode 0b111011110000 = .ok .incY := rfl

theorem decode_ldXi (v : Octet) : decode (0b1011#4 ++ v) = .ok (.ldXi v) := decode_nibble_append_octet _ v rfl
theorem decode_ldYi (v : Octet) : decode (0b1000#4 ++ v) = .ok (.ldYi v) := decode_nibble_append_octet _ v rfl

theorem decode_ldXPr (r : Reg) : decode (0b1110100000#10 ++ r.code) = .ok (.ldXPr r) := by cases r <;> rfl
theorem decode_ldXHr (r : Reg) : decode (0b1110100001#10 ++ r.code) = .ok (.ldXHr r) := by cases r <;> rfl
theorem decode_ldXLr (r : Reg) : decode (0b1110100010#10 ++ r.code) = .ok (.ldXLr r) := by cases r <;> rfl
theorem decode_ldYPr (r : Reg) : decode (0b1110100100#10 ++ r.code) = .ok (.ldYPr r) := by cases r <;> rfl
theorem decode_ldYHr (r : Reg) : decode (0b1110100101#10 ++ r.code) = .ok (.ldYHr r) := by cases r <;> rfl
theorem decode_ldYLr (r : Reg) : decode (0b1110100110#10 ++ r.code) = .ok (.ldYLr r) := by cases r <;> rfl

theorem decode_ldrXP (r : Reg) : decode (0b1110101000#10 ++ r.code) = .ok (.ldrXP r) := by cases r <;> rfl
theorem decode_ldrXH (r : Reg) : decode (0b1110101001#10 ++ r.code) = .ok (.ldrXH r) := by cases r <;> rfl
theorem decode_ldrXL (r : Reg) : decode (0b1110101010#10 ++ r.code) = .ok (.ldrXL r) := by cases r <;> rfl
theorem decode_ldrYP (r : Reg) : decode (0b1110101100#10 ++ r.code) = .ok (.ldrYP r) := by cases r <;> rfl
theorem decode_ldrYH (r : Reg) : decode (0b1110101101#10 ++ r.code) = .ok (.ldrYH r) := by cases r <;> rfl
theorem decode_ldrYL (r : Reg) : decode (0b1110101110#10 ++ r.code) = .ok (.ldrYL r) := by cases r <;> rfl

theorem decode_adcXH : ∀ imm : Nibble, decode (0b10100000#8 ++ imm) = .ok (.adcXH imm) := by decide
theorem decode_adcXL : ∀ imm : Nibble, decode (0b10100001#8 ++ imm) = .ok (.adcXL imm) := by decide
theorem decode_adcYH : ∀ imm : Nibble, decode (0b10100010#8 ++ imm) = .ok (.adcYH imm) := by decide
theorem decode_adcYL : ∀ imm : Nibble, decode (0b10100011#8 ++ imm) = .ok (.adcYL imm) := by decide
theorem decode_cpXH : ∀ imm : Nibble, decode (0b10100100#8 ++ imm) = .ok (.cpXH imm) := by decide
theorem decode_cpXL : ∀ imm : Nibble, decode (0b10100101#8 ++ imm) = .ok (.cpXL imm) := by decide
theorem decode_cpYH : ∀ imm : Nibble, decode (0b10100110#8 ++ imm) = .ok (.cpYH imm) := by decide
theorem decode_cpYL : ∀ imm : Nibble, decode (0b10100111#8 ++ imm) = .ok (.cpYL imm) := by decide

end Sys2Proof

namespace Sys2Proof.Machine

/-! ### What each index instruction answers -/

theorem exec_incX (s : State) : exec .incX s = .next (s.bumpIdx .x 1) := rfl
theorem exec_incY (s : State) : exec .incY s = .next (s.bumpIdx .y 1) := rfl

theorem exec_ldXi (v : Octet) (s : State) : exec (.ldXi v) s = .next (s.setX (idxOfPageHL (idxPage s.x) v)) := rfl
theorem exec_ldYi (v : Octet) (s : State) : exec (.ldYi v) s = .next (s.setY (idxOfPageHL (idxPage s.y) v)) := rfl

theorem exec_ldXPr (r : Reg) (s : State) : exec (.ldXPr r) s = .next (loadIdxField idxSetPage .x r s) := rfl
theorem exec_ldXHr (r : Reg) (s : State) : exec (.ldXHr r) s = .next (loadIdxField idxSetHigh .x r s) := rfl
theorem exec_ldXLr (r : Reg) (s : State) : exec (.ldXLr r) s = .next (loadIdxField idxSetLow .x r s) := rfl
theorem exec_ldYPr (r : Reg) (s : State) : exec (.ldYPr r) s = .next (loadIdxField idxSetPage .y r s) := rfl
theorem exec_ldYHr (r : Reg) (s : State) : exec (.ldYHr r) s = .next (loadIdxField idxSetHigh .y r s) := rfl
theorem exec_ldYLr (r : Reg) (s : State) : exec (.ldYLr r) s = .next (loadIdxField idxSetLow .y r s) := rfl

theorem exec_ldrXP (r : Reg) (s : State) : exec (.ldrXP r) s = .next (storeIdxField idxPage .x r s) := rfl
theorem exec_ldrXH (r : Reg) (s : State) : exec (.ldrXH r) s = .next (storeIdxField idxHigh .x r s) := rfl
theorem exec_ldrXL (r : Reg) (s : State) : exec (.ldrXL r) s = .next (storeIdxField idxLow .x r s) := rfl
theorem exec_ldrYP (r : Reg) (s : State) : exec (.ldrYP r) s = .next (storeIdxField idxPage .y r s) := rfl
theorem exec_ldrYH (r : Reg) (s : State) : exec (.ldrYH r) s = .next (storeIdxField idxHigh .y r s) := rfl
theorem exec_ldrYL (r : Reg) (s : State) : exec (.ldrYL r) s = .next (storeIdxField idxLow .y r s) := rfl

theorem exec_adcXH (imm : Nibble) (s : State) :
    exec (.adcXH imm) s = .next (adcIdxField idxHigh idxSetHigh .x imm s) := rfl
theorem exec_adcXL (imm : Nibble) (s : State) :
    exec (.adcXL imm) s = .next (adcIdxField idxLow idxSetLow .x imm s) := rfl
theorem exec_adcYH (imm : Nibble) (s : State) :
    exec (.adcYH imm) s = .next (adcIdxField idxHigh idxSetHigh .y imm s) := rfl
theorem exec_adcYL (imm : Nibble) (s : State) :
    exec (.adcYL imm) s = .next (adcIdxField idxLow idxSetLow .y imm s) := rfl

theorem exec_cpXH (imm : Nibble) (s : State) : exec (.cpXH imm) s = .next (cpIdxField idxHigh .x imm s) := rfl
theorem exec_cpXL (imm : Nibble) (s : State) : exec (.cpXL imm) s = .next (cpIdxField idxLow .x imm s) := rfl
theorem exec_cpYH (imm : Nibble) (s : State) : exec (.cpYH imm) s = .next (cpIdxField idxHigh .y imm s) := rfl
theorem exec_cpYL (imm : Nibble) (s : State) : exec (.cpYL imm) s = .next (cpIdxField idxLow .y imm s) := rfl

/-! ### The three nibbles of an index register as numbers, and one of them replaced (R11) -/

theorem idxPage_eq_ofNat (v : DataAddr) : idxPage v = BitVec.ofNat 4 (v.toNat / 256) := by
  rw [idxPage, BitVec.extractLsb', Nat.shiftRight_eq_div_pow]

theorem idxHigh_eq_ofNat (v : DataAddr) : idxHigh v = BitVec.ofNat 4 (v.toNat / 16) := by
  rw [idxHigh, BitVec.extractLsb', Nat.shiftRight_eq_div_pow]

theorem idxLow_eq_ofNat (v : DataAddr) : idxLow v = BitVec.ofNat 4 v.toNat := rfl

theorem idxPage_toNat (v : DataAddr) : (idxPage v).toNat = v.toNat / 256 := by
  rw [idxPage_eq_ofNat, BitVec.toNat_ofNat]
  omega

theorem indexIs_self (v : DataAddr) : IndexIs v (idxPage v) (idxHigh v) (idxLow v) := idx_parts v

theorem indexIs_idxSetPage (v : DataAddr) (n : Nibble) : IndexIs (idxSetPage v n) n (idxHigh v) (idxLow v) :=
  indexIs_ofNibbles _ _ _

theorem indexIs_idxSetHigh (v : DataAddr) (n : Nibble) : IndexIs (idxSetHigh v n) (idxPage v) n (idxLow v) :=
  indexIs_ofNibbles _ _ _

theorem indexIs_idxSetLow (v : DataAddr) (n : Nibble) : IndexIs (idxSetLow v n) (idxPage v) (idxHigh v) n :=
  indexIs_ofNibbles _ _ _

/-! ### Index registers by name: `k` is the one an instruction writes, `j` the other -/

@[simp] theorem setIdx_idx (s : State) (k : IndexReg) (v : DataAddr) : (s.setIdx k v).idx k = v := by
  cases k <;> rfl

theorem setIdx_idx_of_ne (s : State) (v : DataAddr) : ∀ {j k : IndexReg}, j ≠ k → (s.setIdx k v).idx j = s.idx j
  | .x, .y, _ => rfl
  | .y, .x, _ => rfl
  | .x, .x, other | .y, .y, other => absurd rfl other

@[simp] theorem readReg_idx (r : Reg) (s : State) (k : IndexReg) : (readReg r s).2.idx k = s.idx k := by
  cases k <;> simp [State.idx]

@[simp] theorem setArithFlags_idx (s : State) (v : Nibble × Bool) (k : IndexReg) :
    (s.setArithFlags v).idx k = s.idx k := by
  cases k <;> simp [State.idx]

/-! ### `INC` and `LD` of the low 8 bits (R130 to R133) -/

theorem bumpIdx_effect (k j : IndexReg) (n : Octet) (s : State) (other : j ≠ k := by decide) :
    IndexAdvanced (s.idx k) ((s.bumpIdx k n).idx k) n.toNat ∧ (s.bumpIdx k n).idx j = s.idx j ∧
      (s.bumpIdx k n).f = s.f := by
  refine ⟨?advanced, setIdx_idx_of_ne s _ other, by simp⟩
  rw [State.bumpIdx, setIdx_idx]
  exact indexAdvanced_idxAdd (s.idx k) n

theorem idxOfPageHL_idxPage_toNat (x : DataAddr) (v : Octet) :
    (idxOfPageHL (idxPage x) v).toNat = 256 * (x.toNat / 256) + v.toNat := by
  rw [idxOfPageHL_toNat, idxPage_toNat]

/-- Settles O8: both increments are `bumpIdx`, both loads put the immediate under the old page. -/
theorem indexIncrementsAndLoadsKeepThePage : Obligations.IndexIncrementsAndLoadsKeepThePage := fun v s =>
  ⟨decode_incX, decode_incY, decode_ldXi v, decode_ldYi v,
    ⟨_, exec_incX s, bumpIdx_effect .x .y 1 s⟩,
    ⟨_, exec_incY s, bumpIdx_effect .y .x 1 s⟩,
    ⟨_, exec_ldXi v s, idxOfPageHL_idxPage_toNat s.x v, rfl, rfl⟩,
    ⟨_, exec_ldYi v s, idxOfPageHL_idxPage_toNat s.y v, rfl, rfl⟩⟩

/-! ### `LD` into an index nibble (R134 to R139) -/

theorem loadIdxField_eq (put : DataAddr → Nibble → DataAddr) (k : IndexReg) (r : Reg) (s : State) :
    loadIdxField put k r s = (readReg r s).2.setIdx k (put (s.idx k) (regValue r s)) := by
  simp [loadIdxField, regValue]

/-- The premise says which nibble `put` replaces. -/
theorem loadIdxField_effect {put : DataAddr → Nibble → DataAddr} (k j : IndexReg) {r : Reg} {s : State} {p h l : Nibble}
    (nibbles : IndexIs (put (s.idx k) (regValue r s)) p h l) (other : j ≠ k := by decide) :
    IndexIs ((loadIdxField put k r s).idx k) p h l ∧ (loadIdxField put k r s).idx j = s.idx j ∧
      (loadIdxField put k r s).f = s.f := by
  rw [loadIdxField_eq, setIdx_idx, setIdx_idx_of_ne _ _ other]
  exact ⟨nibbles, by simp⟩

/-- Settles O9: the six loads are `loadIdxField` with the nibble they put. -/
theorem indexFieldLoadsReplaceOneNibble : Obligations.IndexFieldLoadsReplaceOneNibble := fun r s =>
  ⟨decode_ldXPr r, decode_ldXHr r, decode_ldXLr r, decode_ldYPr r, decode_ldYHr r, decode_ldYLr r,
    indexIs_self s.x, indexIs_self s.y,
    ⟨_, exec_ldXPr r s, loadIdxField_effect .x .y (indexIs_idxSetPage _ _)⟩,
    ⟨_, exec_ldXHr r s, loadIdxField_effect .x .y (indexIs_idxSetHigh _ _)⟩,
    ⟨_, exec_ldXLr r s, loadIdxField_effect .x .y (indexIs_idxSetLow _ _)⟩,
    ⟨_, exec_ldYPr r s, loadIdxField_effect .y .x (indexIs_idxSetPage _ _)⟩,
    ⟨_, exec_ldYHr r s, loadIdxField_effect .y .x (indexIs_idxSetHigh _ _)⟩,
    ⟨_, exec_ldYLr r s, loadIdxField_effect .y .x (indexIs_idxSetLow _ _)⟩⟩

/-! ### `LD` from an index nibble (R140 to R145) -/

theorem storeIdxField_effect (get : DataAddr → Nibble) (k : IndexReg) (r : Reg) (s : State)
    (hw : Memory.wf s.mem = true) :
    regReceives r (get (s.idx k)) s (storeIdxField get k r s) ∧ (storeIdxField get k r s).f = s.f :=
  ⟨regReceives_writeReg r (get (s.idx k)) s s hw rfl rfl rfl rfl, by simp [storeIdxField]⟩

/-- Settles O10: the six stores are `storeIdxField` with the nibble they get, which the statement writes as a number. -/
theorem indexFieldStoresCopyOneNibble : Obligations.IndexFieldStoresCopyOneNibble := by
  intro r s hw
  simp only [← idxPage_eq_ofNat, ← idxHigh_eq_ofNat, ← idxLow_eq_ofNat]
  exact ⟨decode_ldrXP r, decode_ldrXH r, decode_ldrXL r, decode_ldrYP r, decode_ldrYH r, decode_ldrYL r,
    ⟨_, exec_ldrXP r s, storeIdxField_effect idxPage .x r s hw⟩,
    ⟨_, exec_ldrXH r s, storeIdxField_effect idxHigh .x r s hw⟩,
    ⟨_, exec_ldrXL r s, storeIdxField_effect idxLow .x r s hw⟩,
    ⟨_, exec_ldrYP r s, storeIdxField_effect idxPage .y r s hw⟩,
    ⟨_, exec_ldrYH r s, storeIdxField_effect idxHigh .y r s hw⟩,
    ⟨_, exec_ldrYL r s, storeIdxField_effect idxLow .y r s hw⟩⟩

/-! ### `ADC` and `CP` on an index nibble (R146 to R153) -/

theorem flagsAre_setArithFlags (s : State) (v : Nibble × Bool) :
    FlagsAre (s.setArithFlags v) v.2 (v.1 == 0) s.flagD s.flagI :=
  flags_setCZ s v.2 (v.1 == 0)

/-- The result and the carry of `ADC` on an index nibble: the sum is binary, without the decimal flag. -/
def adcIdxSum (get : DataAddr → Nibble) (k : IndexReg) (imm : Nibble) (s : State) : Nibble × Bool :=
  add4 (get (s.idx k)) imm s.flagC false

theorem adcIdxField_eq (get : DataAddr → Nibble) (put : DataAddr → Nibble → DataAddr) (k : IndexReg) (imm : Nibble)
    (s : State) : adcIdxField get put k imm s =
      (s.setIdx k (put (s.idx k) (adcIdxSum get k imm s).1)).setArithFlags (adcIdxSum get k imm s) := rfl

/-- The premise says which nibble `put` replaces. -/
theorem adcIdxField_effect {get : DataAddr → Nibble} {put : DataAddr → Nibble → DataAddr} (k j : IndexReg)
    {imm : Nibble} {s : State} {p h l : Nibble} (nibbles : IndexIs (put (s.idx k) (adcIdxSum get k imm s).1) p h l)
    (other : j ≠ k := by decide) :
    SumIs (get (s.idx k)) imm s.flagC false (adcIdxSum get k imm s).1 (adcIdxSum get k imm s).2 ∧
      IndexIs ((adcIdxField get put k imm s).idx k) p h l ∧ (adcIdxField get put k imm s).idx j = s.idx j ∧
      FlagsAre (adcIdxField get put k imm s) (adcIdxSum get k imm s).2 ((adcIdxSum get k imm s).1 == 0) s.flagD s.flagI := by
  rw [adcIdxField_eq, setArithFlags_idx, setArithFlags_idx, setIdx_idx, setIdx_idx_of_ne _ _ other]
  refine ⟨add4_sumIs _ _ _ _, nibbles, rfl, ?flags⟩
  simpa only [setIdx_keeps] using flagsAre_setArithFlags (s.setIdx k _) (adcIdxSum get k imm s)

theorem cpIdxField_effect (get : DataAddr → Nibble) (k : IndexReg) (imm : Nibble) (s : State) :
    FlagsCompare (get (s.idx k)) imm s (cpIdxField get k imm s) ∧ (cpIdxField get k imm s).x = s.x ∧
      (cpIdxField get k imm s).y = s.y :=
  ⟨flagsCompare_of (get (s.idx k)) imm s s rfl, by simp [cpIdxField]⟩

/-- Settles O11: the additions are `adcIdxField` and the comparisons `cpIdxField`, with the nibble they work on. -/
theorem indexNibbleAdditionsAndCompares : Obligations.IndexNibbleAdditionsAndCompares := fun imm s =>
  ⟨decode_adcXH imm, decode_adcXL imm, decode_adcYH imm, decode_adcYL imm,
    ⟨_, _, _, exec_adcXH imm s, adcIdxField_effect .x .y (indexIs_idxSetHigh _ _)⟩,
    ⟨_, _, _, exec_adcXL imm s, adcIdxField_effect .x .y (indexIs_idxSetLow _ _)⟩,
    ⟨_, _, _, exec_adcYH imm s, adcIdxField_effect .y .x (indexIs_idxSetHigh _ _)⟩,
    ⟨_, _, _, exec_adcYL imm s, adcIdxField_effect .y .x (indexIs_idxSetLow _ _)⟩,
    decode_cpXH imm, decode_cpXL imm, decode_cpYH imm, decode_cpYL imm,
    ⟨_, exec_cpXH imm s, cpIdxField_effect idxHigh .x imm s⟩,
    ⟨_, exec_cpXL imm s, cpIdxField_effect idxLow .x imm s⟩,
    ⟨_, exec_cpYH imm s, cpIdxField_effect idxHigh .y imm s⟩,
    ⟨_, exec_cpYL imm s, cpIdxField_effect idxLow .y imm s⟩⟩

end Sys2Proof.Machine
end

section
/-! Settles the short direct transfers and the transfers with post-increment (spec/44_transfer.md R162 to R170). -/

namespace Sys2Proof

/-! ### The words of these transfers (R66): an opcode octet and a nibble, an opcode nibble and an octet, or two operand codes -/

theorem decode_ldAMn : ∀ n : Nibble, decode (0b11111010#8 ++ n) = .ok (.ldAMn n) := by decide
theorem decode_ldBMn : ∀ n : Nibble, decode (0b11111011#8 ++ n) = .ok (.ldBMn n) := by decide
theorem decode_ldMnA : ∀ n : Nibble, decode (0b11111000#8 ++ n) = .ok (.ldMnA n) := by decide
theorem decode_ldMnB : ∀ n : Nibble, decode (0b11111001#8 ++ n) = .ok (.ldMnB n) := by decide
theorem decode_ldpxMX : ∀ imm : Nibble, decode (0b11100110#8 ++ imm) = .ok (.ldpxMX imm) := by decide
theorem decode_ldpyMY : ∀ imm : Nibble, decode (0b11100111#8 ++ imm) = .ok (.ldpyMY imm) := by decide

theorem decode_lbpx (l : Octet) : decode (0b1001#4 ++ l) = .ok (.lbpx l) := decode_nibble_append_octet _ l rfl

/-- The word of the copy of `A` to itself is the one of `INC X`, whose row is earlier (R67). -/
theorem decode_ldpxRQ (r q : Reg) :
    decode (0b11101110#8 ++ r.code ++ q.code) = .ok (if r = .a ∧ q = .a then .incX else .ldpxRQ r q) := by
  cases r <;> cases q <;> rfl

/-- The word of the copy of `A` to itself is the one of `INC Y`, whose row is earlier (R67). -/
theorem decode_ldpyRQ (r q : Reg) :
    decode (0b11101111#8 ++ r.code ++ q.code) = .ok (if r = .a ∧ q = .a then .incY else .ldpyRQ r q) := by
  cases r <;> cases q <;> rfl

end Sys2Proof

namespace Sys2Proof.Machine

/-! ### What each of these transfers answers -/

theorem exec_ldAMn (n : Nibble) (s : State) :
    exec (.ldAMn n) s = .next ((memRead (mnAddr n) s).2.setA (memRead (mnAddr n) s).1) := rfl
theorem exec_ldBMn (n : Nibble) (s : State) :
    exec (.ldBMn n) s = .next ((memRead (mnAddr n) s).2.setB (memRead (mnAddr n) s).1) := rfl
theorem exec_ldMnA (n : Nibble) (s : State) : exec (.ldMnA n) s = .next (memWrite (mnAddr n) s.a s) := rfl
theorem exec_ldMnB (n : Nibble) (s : State) : exec (.ldMnB n) s = .next (memWrite (mnAddr n) s.b s) := rfl

/-- The immediate forms are the write of the operand `MX` or `MY`, then the increment (R166, R168). -/
theorem exec_ldpxMX (imm : Nibble) (s : State) :
    exec (.ldpxMX imm) s = .next ((writeReg .mx imm s).bumpIdx .x 1) := rfl
theorem exec_ldpyMY (imm : Nibble) (s : State) :
    exec (.ldpyMY imm) s = .next ((writeReg .my imm s).bumpIdx .y 1) := rfl

theorem exec_ldpxRQ (r q : Reg) (s : State) :
    exec (.ldpxRQ r q) s = .next ((writeReg r (regValue q s) (readReg q s).2).bumpIdx .x 1) := rfl
theorem exec_ldpyRQ (r q : Reg) (s : State) :
    exec (.ldpyRQ r q) s = .next ((writeReg r (regValue q s) (readReg q s).2).bumpIdx .y 1) := rfl

theorem exec_lbpx (l : Octet) (s : State) : exec (.lbpx l) s = .next (storePairAtX l s) := rfl

/-! ### The short direct operand (R162 to R165, R171) -/

theorem mnAddr_toNat (n : Nibble) : (mnAddr n).toNat = n.toNat :=
  BitVec.toNat_setWidth_of_le (by decide)

theorem inRam_mnAddr (n : Nibble) (s : State) (default : s.params.map = standardMap) : s.inRam (mnAddr n) = true := by
  have small : n.toNat < 16 := n.isLt
  simp only [State.inRam, Range.holds, default, standardMap, mnAddr_toNat, Bool.and_eq_true, decide_eq_true_eq]
  omega

/-- A store of a register to a cell: the cell receives the value, the registers and `F` stay. -/
theorem memWrite_stores (k : DataAddr) (v : Nibble) (s : State) (hw : Memory.wf s.mem = true) :
    cellReceives k v s (memWrite k v s) ∧ (memWrite k v s).a = s.a ∧ (memWrite k v s).b = s.b ∧
      (memWrite k v s).f = s.f :=
  ⟨cellReceives_memWrite k v s s hw rfl rfl, by simp⟩

/-- Settles O13: the loads are a read of the cell put into the register, the stores are `memWrite` of the register. -/
theorem shortDirectTransfers : Obligations.ShortDirectTransfers := fun n s hw =>
  ⟨mnAddr_toNat n, inRam_mnAddr n s, decode_ldAMn n, decode_ldBMn n, decode_ldMnA n, decode_ldMnB n,
    ⟨_, exec_ldAMn n s, by simp⟩,
    ⟨_, exec_ldBMn n s, by simp⟩,
    ⟨_, exec_ldMnA n s, memWrite_stores (mnAddr n) s.a s hw⟩,
    ⟨_, exec_ldMnB n s, memWrite_stores (mnAddr n) s.b s hw⟩⟩

/-! ### The transfers with post-increment (R166 to R169) -/

@[simp] theorem writeReg_idx (r : Reg) (v : Nibble) (s : State) (k : IndexReg) : (writeReg r v s).idx k = s.idx k := by
  cases k <;> simp [State.idx]

/-- What `LDPX` and `LDPY` share: `u` is the state the operand is written in, which has the cells, the index registers and
the flags of the state `s` the instruction starts in. So `r` names the cell at the old index value, and the increment is of that
value too. -/
theorem writeReg_bumpIdx_effect (k j : IndexReg) (r : Reg) (v : Nibble) (s u : State) (hw : Memory.wf s.mem = true)
    (mem : u.mem = s.mem := by simp) (params : u.params = s.params := by simp)
    (idx : ∀ i, u.idx i = s.idx i := by simp) (flags : u.f = s.f := by simp) (other : j ≠ k := by decide) :
    regReceives r v s ((writeReg r v u).bumpIdx k 1) ∧
      IndexAdvanced (s.idx k) (((writeReg r v u).bumpIdx k 1).idx k) 1 ∧
      ((writeReg r v u).bumpIdx k 1).idx j = s.idx j ∧ ((writeReg r v u).bumpIdx k 1).f = s.f := by
  have written : regReceives r v s (writeReg r v u) := regReceives_writeReg r v s u hw mem params (idx .x) (idx .y)
  have advanced := bumpIdx_effect k j 1 (writeReg r v u) other
  simp only [writeReg_idx, writeReg_keeps, idx, flags] at advanced
  exact ⟨regReceives_congr r v s _ _ written (by simp) (by simp) (by simp), advanced⟩

/-! ### The pair store (R170) -/

theorem storePairAtX_eq_setX (l : Octet) (s : State) :
    storePairAtX l s =
      (memWrite (idxAdd s.x 1) (l.extractLsb' 4 4) (memWrite s.x (l.extractLsb' 0 4) s)).setX (idxAdd s.x 2) := by
  simp [storePairAtX, State.bumpIdx, State.setIdx, State.idx]

/-- `LBPX` is its two writes in this order and the new `X`, and nothing else. -/
theorem storePairAtX_eq_memWrites (l : Octet) (s : State) :
    storePairAtX l s =
      { memWrite (idxAdd s.x 1) (l.extractLsb' 4 4) (memWrite s.x (l.extractLsb' 0 4) s) with
        x := (storePairAtX l s).x } := by
  rw [storePairAtX_eq_setX]
  rfl

/-- Settles O14: `LBPX` is the pair store; the four others write an operand and advance one index register. -/
theorem postIncrementTransfers : Obligations.PostIncrementTransfers := fun r q imm l s hw =>
  ⟨decode_lbpx l, indexAdvanced_idxAdd s.x 1,
    ⟨_, exec_lbpx l s, pairStored_of l s s hw rfl rfl rfl, by simp, by simp, storePairAtX_eq_memWrites l s⟩,
    decode_ldpxMX imm, decode_ldpyMY imm, decode_ldpxRQ r q, decode_ldpyRQ r q,
    ⟨_, exec_ldpxMX imm s, writeReg_bumpIdx_effect .x .y .mx imm s s hw⟩,
    ⟨_, exec_ldpyMY imm s, writeReg_bumpIdx_effect .y .x .my imm s s hw⟩,
    ⟨_, exec_ldpxRQ r q s, writeReg_bumpIdx_effect .x .y r (regValue q s) s (readReg q s).2 hw⟩,
    ⟨_, exec_ldpyRQ r q s, writeReg_bumpIdx_effect .y .x r (regValue q s) s (readReg q s).2 hw⟩⟩

end Sys2Proof.Machine
end

section
/-! Settles the flag instructions (spec/45_flag.md R180 to R189). -/

namespace Sys2Proof

/-! ### The words of the flag instructions (R66) -/

theorem decode_scf : decode 0xF41 = .ok .scf := rfl
theorem decode_rcf : decode 0xF5E = .ok .rcf := rfl
theorem decode_szf : decode 0xF42 = .ok .szf := rfl
theorem decode_rzf : decode 0xF5D = .ok .rzf := rfl
theorem decode_sdf : decode 0xF44 = .ok .sdf := rfl
theorem decode_rdf : decode 0xF5B = .ok .rdf := rfl
theorem decode_ei : decode 0xF48 = .ok .ei := rfl
theorem decode_di : decode 0xF57 = .ok .di := rfl

/-- Over the 16 masks; the premise leaves out the four whose words are those of `SCF`, `SZF`, `SDF` and `EI` (R67). -/
theorem decode_setF : ∀ imm : Nibble, (Instr.setF imm).wellFormed = true →
    decode (0b11110100#8 ++ imm) = .ok (.setF imm) := by decide

/-- Over the 16 masks; the premise leaves out the four whose words are those of `RCF`, `RZF`, `RDF` and `DI` (R67). -/
theorem decode_rstF : ∀ imm : Nibble, (Instr.rstF imm).wellFormed = true →
    decode (0b11110101#8 ++ imm) = .ok (.rstF imm) := by decide

end Sys2Proof

namespace Sys2Proof.Machine

/-! ### What the flag instructions answer -/

theorem exec_setF (imm : Nibble) (s : State) : exec (.setF imm) s = .next (s.setF (s.f ||| imm)) := rfl
theorem exec_rstF (imm : Nibble) (s : State) : exec (.rstF imm) s = .next (s.setF (s.f &&& imm)) := rfl
theorem exec_scf (s : State) : exec .scf s = .next (s.setC true) := rfl
theorem exec_rcf (s : State) : exec .rcf s = .next (s.setC false) := rfl
theorem exec_szf (s : State) : exec .szf s = .next (s.setZ true) := rfl
theorem exec_rzf (s : State) : exec .rzf s = .next (s.setZ false) := rfl
theorem exec_sdf (s : State) : exec .sdf s = .next (s.setD true) := rfl
theorem exec_rdf (s : State) : exec .rdf s = .next (s.setD false) := rfl
theorem exec_ei (s : State) : exec .ei s = .next (s.setI true) := rfl
theorem exec_di (s : State) : exec .di s = .next (s.setI false) := rfl

/-! ### The masks act on each flag alone (R180, R181) -/

theorem flagsAre_setF_or (imm : Nibble) (s : State) :
    FlagsAre (s.setF (s.f ||| imm)) (s.flagC || imm.getLsbD 0) (s.flagZ || imm.getLsbD 1) (s.flagD || imm.getLsbD 2)
      (s.flagI || imm.getLsbD 3) :=
  ⟨BitVec.getLsbD_or, BitVec.getLsbD_or, BitVec.getLsbD_or, BitVec.getLsbD_or⟩

theorem flagsAre_setF_and (imm : Nibble) (s : State) :
    FlagsAre (s.setF (s.f &&& imm)) (s.flagC && imm.getLsbD 0) (s.flagZ && imm.getLsbD 1) (s.flagD && imm.getLsbD 2)
      (s.flagI && imm.getLsbD 3) :=
  ⟨BitVec.getLsbD_and, BitVec.getLsbD_and, BitVec.getLsbD_and, BitVec.getLsbD_and⟩

/-- Settles O15: a mask acts bit by bit on `F`; the eight others are the single-flag writes, whose laws say the rest stays. -/
theorem flagInstructionsSetAndReset : Obligations.FlagInstructionsSetAndReset := fun imm s =>
  ⟨decode_scf, decode_rcf, decode_szf, decode_rzf, decode_sdf, decode_rdf, decode_ei, decode_di,
    decode_setF imm, decode_rstF imm, rfl, rfl, rfl, rfl,
    ⟨_, exec_setF imm s, flagsAre_setF_or imm s⟩,
    ⟨_, exec_rstF imm s, flagsAre_setF_and imm s⟩,
    ⟨_, exec_scf s, flags_setC s true⟩,
    ⟨_, exec_rcf s, flags_setC s false⟩,
    ⟨_, exec_szf s, flags_setZ s true⟩,
    ⟨_, exec_rzf s, flags_setZ s false⟩,
    ⟨_, exec_sdf s, flags_setD s true⟩,
    ⟨_, exec_rdf s, flags_setD s false⟩,
    ⟨_, exec_ei s, flags_setI s true⟩,
    ⟨_, exec_di s, flags_setI s false⟩⟩

end Sys2Proof.Machine
end

section
/-! Settles the stack instructions (spec/46_stack.md R200 to R221). -/

namespace Sys2Proof

/-! ### The words of the stack family (R66): a fixed word or an operand code -/

theorem decode_incSP : decode 0xFDB = .ok .incSP := rfl
theorem decode_decSP : decode 0xFCB = .ok .decSP := rfl

theorem decode_ldSPHr (r : Reg) : decode (0b1111111000#10 ++ r.code) = .ok (.ldSPHr r) := by cases r <;> rfl
theorem decode_ldSPLr (r : Reg) : decode (0b1111111100#10 ++ r.code) = .ok (.ldSPLr r) := by cases r <;> rfl
theorem decode_ldrSPH (r : Reg) : decode (0b1111111001#10 ++ r.code) = .ok (.ldrSPH r) := by cases r <;> rfl
theorem decode_ldrSPL (r : Reg) : decode (0b1111111101#10 ++ r.code) = .ok (.ldrSPL r) := by cases r <;> rfl

theorem decode_pushR (r : Reg) : decode (0b1111110000#10 ++ r.code) = .ok (.pushR r) := by cases r <;> rfl
theorem decode_pushXP : decode 0xFC4 = .ok .pushXP := rfl
theorem decode_pushXH : decode 0xFC5 = .ok .pushXH := rfl
theorem decode_pushXL : decode 0xFC6 = .ok .pushXL := rfl
theorem decode_pushYP : decode 0xFC7 = .ok .pushYP := rfl
theorem decode_pushYH : decode 0xFC8 = .ok .pushYH := rfl
theorem decode_pushYL : decode 0xFC9 = .ok .pushYL := rfl
theorem decode_pushF : decode 0xFCA = .ok .pushF := rfl

theorem decode_popR (r : Reg) : decode (0b1111110100#10 ++ r.code) = .ok (.popR r) := by cases r <;> rfl
theorem decode_popXP : decode 0xFD4 = .ok .popXP := rfl
theorem decode_popXH : decode 0xFD5 = .ok .popXH := rfl
theorem decode_popXL : decode 0xFD6 = .ok .popXL := rfl
theorem decode_popYP : decode 0xFD7 = .ok .popYP := rfl
theorem decode_popYH : decode 0xFD8 = .ok .popYH := rfl
theorem decode_popYL : decode 0xFD9 = .ok .popYL := rfl
theorem decode_popF : decode 0xFDA = .ok .popF := rfl

end Sys2Proof

namespace Sys2Proof.Machine

/-! ### What each stack instruction answers -/

theorem exec_incSP (s : State) : exec .incSP s = .next (s.setSp (s.sp + 1)) := rfl
theorem exec_decSP (s : State) : exec .decSP s = .next (s.setSp (s.sp - 1)) := rfl

theorem exec_ldSPHr (r : Reg) (s : State) :
    exec (.ldSPHr r) s = .next ((readReg r s).2.setSp (spSetHigh (readReg r s).2.sp (regValue r s))) := rfl
theorem exec_ldSPLr (r : Reg) (s : State) :
    exec (.ldSPLr r) s = .next ((readReg r s).2.setSp (spSetLow (readReg r s).2.sp (regValue r s))) := rfl
theorem exec_ldrSPH (r : Reg) (s : State) : exec (.ldrSPH r) s = .next (writeReg r (spHigh s.sp) s) := rfl
theorem exec_ldrSPL (r : Reg) (s : State) : exec (.ldrSPL r) s = .next (writeReg r (spLow s.sp) s) := rfl

theorem exec_pushR (r : Reg) (s : State) :
    exec (.pushR r) s = .next (pushNibble (regValue r s) (readReg r s).2) := rfl
theorem exec_pushXP (s : State) : exec .pushXP s = .next (pushNibble (idxPage s.x) s) := rfl
theorem exec_pushXH (s : State) : exec .pushXH s = .next (pushNibble (idxHigh s.x) s) := rfl
theorem exec_pushXL (s : State) : exec .pushXL s = .next (pushNibble (idxLow s.x) s) := rfl
theorem exec_pushYP (s : State) : exec .pushYP s = .next (pushNibble (idxPage s.y) s) := rfl
theorem exec_pushYH (s : State) : exec .pushYH s = .next (pushNibble (idxHigh s.y) s) := rfl
theorem exec_pushYL (s : State) : exec .pushYL s = .next (pushNibble (idxLow s.y) s) := rfl
theorem exec_pushF (s : State) : exec .pushF s = .next (pushNibble s.f s) := rfl

theorem exec_popR (r : Reg) (s : State) :
    exec (.popR r) s = .next (dropNibble (writeReg r (topValue s) (readTop s).2)) := rfl
theorem exec_popXP (s : State) : exec .popXP s = .next (popIdxField idxSetPage .x s) := rfl
theorem exec_popXH (s : State) : exec .popXH s = .next (popIdxField idxSetHigh .x s) := rfl
theorem exec_popXL (s : State) : exec .popXL s = .next (popIdxField idxSetLow .x s) := rfl
theorem exec_popYP (s : State) : exec .popYP s = .next (popIdxField idxSetPage .y s) := rfl
theorem exec_popYH (s : State) : exec .popYH s = .next (popIdxField idxSetHigh .y s) := rfl
theorem exec_popYL (s : State) : exec .popYL s = .next (popIdxField idxSetLow .y s) := rfl
theorem exec_popF (s : State) : exec .popF s = .next (dropNibble ((readTop s).2.setF (topValue s))) := rfl

/-! ### The stack pointer as a number (R12) -/

theorem octet_add_one_toNat (sp : Octet) : (sp + 1).toNat = (sp.toNat + 1) % 256 := BitVec.toNat_add sp 1

theorem octet_sub_one_toNat (sp : Octet) : (sp - 1).toNat = (sp.toNat + 255) % 256 := by
  bv_omega

theorem stackAddr_eq_ofNat (sp : Octet) : stackAddr sp = BitVec.ofNat 12 sp.toNat :=
  (BitVec.ofNat_toNat 12 sp).symm

theorem spHigh_eq_ofNat (sp : Octet) : spHigh sp = BitVec.ofNat 4 (sp.toNat / 16) := by
  rw [spHigh, BitVec.extractLsb', Nat.shiftRight_eq_div_pow]

theorem spLow_eq_ofNat (sp : Octet) : spLow sp = BitVec.ofNat 4 sp.toNat := rfl

theorem spSetHigh_toNat (sp : Octet) (n : Nibble) : (spSetHigh sp n).toNat = 16 * n.toNat + sp.toNat % 16 := by
  rw [spSetHigh, append_nibbles_toNat, spLow_eq_ofNat, BitVec.toNat_ofNat]

theorem spSetLow_toNat (sp : Octet) (n : Nibble) : (spSetLow sp n).toNat = 16 * (sp.toNat / 16) + n.toNat := by
  have high : sp.toNat / 16 < 2 ^ 4 := Nat.div_lt_of_lt_mul sp.isLt
  rw [spSetLow, append_nibbles_toNat, spHigh_eq_ofNat, BitVec.toNat_ofNat, Nat.mod_eq_of_lt high]

/-! ### The pushes (R202 to R209) -/

@[simp] theorem pushNibble_sp (n : Nibble) (s : State) : (pushNibble n s).sp = s.sp - 1 := by
  simp [pushNibble]

theorem cellReceives_pushNibble (n : Nibble) (s t : State) (hw : Memory.wf s.mem = true) (mem : t.mem = s.mem)
    (params : t.params = s.params) : cellReceives (stackAddr (t.sp - 1)) n s (pushNibble n t) :=
  cellReceives_memWrite _ n s (t.setSp (t.sp - 1)) hw mem params

/-- What the eight pushes share: `t` is the state after the pushed operand has been read, which has the cells and the registers
of the state `s` the instruction starts in. -/
theorem pushNibble_effect (n : Nibble) (s t : State) (hw : Memory.wf s.mem = true) (mem : t.mem = s.mem := by simp)
    (params : t.params = s.params := by simp) (sp : t.sp = s.sp := by simp) (x : t.x = s.x := by simp)
    (y : t.y = s.y := by simp) (flags : t.f = s.f := by simp) :
    (pushNibble n t).sp.toNat = (s.sp.toNat + 255) % 256 ∧
      cellReceives (BitVec.ofNat 12 ((s.sp.toNat + 255) % 256)) n s (pushNibble n t) ∧
      (pushNibble n t).x = s.x ∧ (pushNibble n t).y = s.y ∧ (pushNibble n t).f = s.f := by
  have stored := cellReceives_pushNibble n s t hw mem params
  rw [stackAddr_eq_ofNat, sp, octet_sub_one_toNat] at stored
  refine ⟨?count, stored, by simp [x], by simp [y], by simp [flags]⟩
  rw [pushNibble_sp, sp, octet_sub_one_toNat]

/-- Settles O17: each push is `pushNibble` of its own value, `PUSH r` in the state its operand read leaves. -/
theorem pushesDecrementThenStore : Obligations.PushesDecrementThenStore := by
  intro r s hw
  refine ⟨decode_pushR r, decode_pushXP, decode_pushXH, decode_pushXL, decode_pushYP, decode_pushYH, decode_pushYL,
    decode_pushF, ?effects⟩
  simp only [List.forall_mem_cons]
  exact ⟨⟨_, exec_pushR r s, pushNibble_effect _ s (readReg r s).2 hw⟩,
    ⟨_, exec_pushXP s, pushNibble_effect _ s s hw⟩,
    ⟨_, exec_pushXH s, pushNibble_effect _ s s hw⟩,
    ⟨_, exec_pushXL s, pushNibble_effect _ s s hw⟩,
    ⟨_, exec_pushYP s, pushNibble_effect _ s s hw⟩,
    ⟨_, exec_pushYH s, pushNibble_effect _ s s hw⟩,
    ⟨_, exec_pushYL s, pushNibble_effect _ s s hw⟩,
    ⟨_, exec_pushF s, pushNibble_effect _ s s hw⟩,
    List.forall_mem_nil _⟩

/-! ### The pops (R210 to R217) -/

theorem topValue_eq (s : State) : topValue s = (memRead (BitVec.ofNat 12 s.sp.toNat) s).1 := by
  rw [topValue, stackAddr_eq_ofNat]

theorem readTop_fst (s : State) : (readTop s).1 = topValue s := rfl

theorem dropNibble_sp_toNat (s : State) : (dropNibble s).sp.toNat = (s.sp.toNat + 1) % 256 :=
  octet_add_one_toNat s.sp

@[simp] theorem dropNibble_idx (s : State) (k : IndexReg) : (dropNibble s).idx k = s.idx k := by
  cases k <;> rfl

@[simp] theorem readTop_idx (s : State) (k : IndexReg) : (readTop s).2.idx k = s.idx k := by
  cases k <;> simp [State.idx]

theorem popIdxField_eq (put : DataAddr → Nibble → DataAddr) (k : IndexReg) (s : State) :
    popIdxField put k s = dropNibble ((readTop s).2.setIdx k (put (s.idx k) (topValue s))) := by
  simp only [popIdxField, readTop_idx, readTop_fst]

/-- The premise says which nibble `put` replaces. -/
theorem popIdxField_effect {put : DataAddr → Nibble → DataAddr} (k j : IndexReg) {s : State} {p h l : Nibble}
    (nibbles : IndexIs (put (s.idx k) (topValue s)) p h l) (other : j ≠ k := by decide) :
    IndexIs ((popIdxField put k s).idx k) p h l ∧ (popIdxField put k s).idx j = s.idx j ∧
      (popIdxField put k s).sp.toNat = (s.sp.toNat + 1) % 256 ∧ (popIdxField put k s).f = s.f := by
  rw [popIdxField_eq, dropNibble_idx, dropNibble_idx, setIdx_idx, setIdx_idx_of_ne _ _ other, dropNibble_sp_toNat]
  exact ⟨nibbles, by simp⟩

/-- The operand of `POP r` is written before `SP` counts, and neither the read nor the count moves the cells or the index
registers (R210). -/
theorem popReg_effect (r : Reg) (s : State) (hw : Memory.wf s.mem = true) :
    regReceives r (topValue s) s (dropNibble (writeReg r (topValue s) (readTop s).2)) ∧
      (dropNibble (writeReg r (topValue s) (readTop s).2)).sp.toNat = (s.sp.toNat + 1) % 256 ∧
      (dropNibble (writeReg r (topValue s) (readTop s).2)).f = s.f := by
  have written : regReceives r (topValue s) s (writeReg r (topValue s) (readTop s).2) :=
    regReceives_writeReg r _ s _ hw (by simp) (by simp) (by simp) (by simp)
  rw [dropNibble_sp_toNat]
  exact ⟨regReceives_congr r _ s _ _ written (by simp) (by simp) (by simp), by simp⟩

theorem popFlags_effect (s : State) :
    FlagsAre (dropNibble ((readTop s).2.setF (topValue s))) ((topValue s).getLsbD 0) ((topValue s).getLsbD 1)
        ((topValue s).getLsbD 2) ((topValue s).getLsbD 3) ∧
      (dropNibble ((readTop s).2.setF (topValue s))).sp.toNat = (s.sp.toNat + 1) % 256 := by
  rw [dropNibble_sp_toNat]
  exact ⟨flags_setF (readTop s).2 (topValue s), by simp⟩

/-- Settles O18: the six index pops are `popIdxField` with the nibble they put; the two others write an operand or `F`. -/
theorem popsLoadThenIncrement : Obligations.PopsLoadThenIncrement := fun r s hw =>
  ⟨decode_popR r, decode_popXP, decode_popXH, decode_popXL, decode_popYP, decode_popYH, decode_popYL, decode_popF,
    topValue_eq s,
    ⟨_, exec_popR r s, popReg_effect r s hw⟩,
    ⟨_, exec_popXP s, popIdxField_effect .x .y (indexIs_idxSetPage _ _)⟩,
    ⟨_, exec_popXH s, popIdxField_effect .x .y (indexIs_idxSetHigh _ _)⟩,
    ⟨_, exec_popXL s, popIdxField_effect .x .y (indexIs_idxSetLow _ _)⟩,
    ⟨_, exec_popYP s, popIdxField_effect .y .x (indexIs_idxSetPage _ _)⟩,
    ⟨_, exec_popYH s, popIdxField_effect .y .x (indexIs_idxSetHigh _ _)⟩,
    ⟨_, exec_popYL s, popIdxField_effect .y .x (indexIs_idxSetLow _ _)⟩,
    ⟨_, exec_popF s, popFlags_effect s⟩⟩

/-! ### The stack pointer itself (R200, R201, R218 to R221) -/

theorem writeReg_effect (r : Reg) (v : Nibble) (s : State) (hw : Memory.wf s.mem = true) :
    regReceives r v s (writeReg r v s) ∧ (writeReg r v s).sp = s.sp ∧ (writeReg r v s).f = s.f :=
  ⟨regReceives_writeReg r v s s hw rfl rfl rfl rfl, by simp⟩

/-- Settles O16: the counts, the loads of one nibble of `SP` as numbers, and the stores as an operand write. -/
theorem stackPointerInstructions : Obligations.StackPointerInstructions := by
  intro r s hw
  simp only [← spHigh_eq_ofNat, ← spLow_eq_ofNat]
  refine ⟨decode_incSP, decode_decSP, decode_ldSPHr r, decode_ldSPLr r, decode_ldrSPH r, decode_ldrSPL r,
    ⟨_, exec_incSP s, octet_add_one_toNat s.sp, rfl, rfl⟩,
    ⟨_, exec_decSP s, octet_sub_one_toNat s.sp, rfl, rfl⟩,
    ⟨_, exec_ldSPHr r s, ?high, by simp⟩,
    ⟨_, exec_ldSPLr r s, ?low, by simp⟩,
    ⟨_, exec_ldrSPH r s, writeReg_effect r _ s hw⟩,
    ⟨_, exec_ldrSPL r s, writeReg_effect r _ s hw⟩⟩
  case high => simp only [State.setSp_sp, readReg_keeps, spSetHigh_toNat]
  case low => simp only [State.setSp_sp, readReg_keeps, spSetLow_toNat]

end Sys2Proof.Machine
end

section
/-! Settles the arithmetic and logic instructions (spec/47_arith.md R230 to R255, R260, R261). -/

namespace Sys2Proof

/-! ### The words of the arithmetic family (R66): two operand codes, an operand code and a nibble, a nibble, or an operand code -/

theorem decode_addRQ (r q : Reg) : decode (0b10101000#8 ++ r.code ++ q.code) = .ok (.addRQ r q) := by
  cases r <;> cases q <;> rfl
theorem decode_adcRQ (r q : Reg) : decode (0b10101001#8 ++ r.code ++ q.code) = .ok (.adcRQ r q) := by
  cases r <;> cases q <;> rfl
theorem decode_subRQ (r q : Reg) : decode (0b10101010#8 ++ r.code ++ q.code) = .ok (.subRQ r q) := by
  cases r <;> cases q <;> rfl
theorem decode_sbcRQ (r q : Reg) : decode (0b10101011#8 ++ r.code ++ q.code) = .ok (.sbcRQ r q) := by
  cases r <;> cases q <;> rfl
theorem decode_andRQ (r q : Reg) : decode (0b10101100#8 ++ r.code ++ q.code) = .ok (.andRQ r q) := by
  cases r <;> cases q <;> rfl
theorem decode_orRQ (r q : Reg) : decode (0b10101101#8 ++ r.code ++ q.code) = .ok (.orRQ r q) := by
  cases r <;> cases q <;> rfl
theorem decode_xorRQ (r q : Reg) : decode (0b10101110#8 ++ r.code ++ q.code) = .ok (.xorRQ r q) := by
  cases r <;> cases q <;> rfl
theorem decode_cpRQ (r q : Reg) : decode (0b11110000#8 ++ r.code ++ q.code) = .ok (.cpRQ r q) := by
  cases r <;> cases q <;> rfl
theorem decode_fanRQ (r q : Reg) : decode (0b11110001#8 ++ r.code ++ q.code) = .ok (.fanRQ r q) := by
  cases r <;> cases q <;> rfl

theorem decode_addRI (r : Reg) (imm : Nibble) : decode (0b110000#6 ++ r.code ++ imm) = .ok (.addRI r imm) := by
  cases r <;> revert imm <;> decide
theorem decode_adcRI (r : Reg) (imm : Nibble) : decode (0b110001#6 ++ r.code ++ imm) = .ok (.adcRI r imm) := by
  cases r <;> revert imm <;> decide
theorem decode_sbcRI (r : Reg) (imm : Nibble) : decode (0b110101#6 ++ r.code ++ imm) = .ok (.sbcRI r imm) := by
  cases r <;> revert imm <;> decide
theorem decode_andRI (r : Reg) (imm : Nibble) : decode (0b110010#6 ++ r.code ++ imm) = .ok (.andRI r imm) := by
  cases r <;> revert imm <;> decide
theorem decode_orRI (r : Reg) (imm : Nibble) : decode (0b110011#6 ++ r.code ++ imm) = .ok (.orRI r imm) := by
  cases r <;> revert imm <;> decide
theorem decode_cpRI (r : Reg) (imm : Nibble) : decode (0b110111#6 ++ r.code ++ imm) = .ok (.cpRI r imm) := by
  cases r <;> revert imm <;> decide
theorem decode_fanRI (r : Reg) (imm : Nibble) : decode (0b110110#6 ++ r.code ++ imm) = .ok (.fanRI r imm) := by
  cases r <;> revert imm <;> decide

/-- The words with the immediate 0xF are those of `NOT`, whose row is earlier (R67). -/
theorem decode_xorRI (r : Reg) (imm : Nibble) :
    decode (0b110100#6 ++ r.code ++ imm) = .ok (if imm = 0xF then .notR r else .xorRI r imm) := by
  cases r <;> revert imm <;> decide

theorem decode_rlc (d : BitVec 2) (r : Reg) : decode (0b10101111#8 ++ d ++ r.code) = .ok (.rlc d r) := by
  cases r <;> revert d <;> decide
theorem decode_rrc (r : Reg) : decode (0b1110100011#10 ++ r.code) = .ok (.rrc r) := by cases r <;> rfl

theorem decode_incMn : ∀ n : Nibble, decode (0b11110110#8 ++ n) = .ok (.incMn n) := by decide
theorem decode_decMn : ∀ n : Nibble, decode (0b11110111#8 ++ n) = .ok (.decMn n) := by decide

theorem decode_acpx (r : Reg) : decode (0b1111001010#10 ++ r.code) = .ok (.acpx r) := by cases r <;> rfl
theorem decode_acpy (r : Reg) : decode (0b1111001011#10 ++ r.code) = .ok (.acpy r) := by cases r <;> rfl
theorem decode_scpx (r : Reg) : decode (0b1111001110#10 ++ r.code) = .ok (.scpx r) := by cases r <;> rfl
theorem decode_scpy (r : Reg) : decode (0b1111001111#10 ++ r.code) = .ok (.scpy r) := by cases r <;> rfl

end Sys2Proof

namespace Sys2Proof.Machine

/-! ### What each arithmetic or logic instruction answers -/

theorem exec_addRI (r : Reg) (imm : Nibble) (s : State) :
    exec (.addRI r imm) s = .next (arithImm add4 false r imm s) := rfl
theorem exec_adcRI (r : Reg) (imm : Nibble) (s : State) :
    exec (.adcRI r imm) s = .next (arithImm add4 true r imm s) := rfl
theorem exec_sbcRI (r : Reg) (imm : Nibble) (s : State) :
    exec (.sbcRI r imm) s = .next (arithImm sub4 true r imm s) := rfl

theorem exec_addRQ (r q : Reg) (s : State) : exec (.addRQ r q) s = .next (arithReg add4 false r q s) := rfl
theorem exec_adcRQ (r q : Reg) (s : State) : exec (.adcRQ r q) s = .next (arithReg add4 true r q s) := rfl
theorem exec_subRQ (r q : Reg) (s : State) : exec (.subRQ r q) s = .next (arithReg sub4 false r q s) := rfl
theorem exec_sbcRQ (r q : Reg) (s : State) : exec (.sbcRQ r q) s = .next (arithReg sub4 true r q s) := rfl

theorem exec_acpx (r : Reg) (s : State) : exec (.acpx r) s = .next (arithIndexed add4 .x r s) := rfl
theorem exec_acpy (r : Reg) (s : State) : exec (.acpy r) s = .next (arithIndexed add4 .y r s) := rfl
theorem exec_scpx (r : Reg) (s : State) : exec (.scpx r) s = .next (arithIndexed sub4 .x r s) := rfl
theorem exec_scpy (r : Reg) (s : State) : exec (.scpy r) s = .next (arithIndexed sub4 .y r s) := rfl

theorem exec_andRI (r : Reg) (imm : Nibble) (s : State) :
    exec (.andRI r imm) s = .next (logicImm (fun a b => a &&& b) r imm s) := rfl
theorem exec_orRI (r : Reg) (imm : Nibble) (s : State) :
    exec (.orRI r imm) s = .next (logicImm (fun a b => a ||| b) r imm s) := rfl
theorem exec_xorRI (r : Reg) (imm : Nibble) (s : State) :
    exec (.xorRI r imm) s = .next (logicImm (fun a b => a ^^^ b) r imm s) := rfl

theorem exec_andRQ (r q : Reg) (s : State) :
    exec (.andRQ r q) s = .next (logicReg (fun a b => a &&& b) r q s) := rfl
theorem exec_orRQ (r q : Reg) (s : State) :
    exec (.orRQ r q) s = .next (logicReg (fun a b => a ||| b) r q s) := rfl
theorem exec_xorRQ (r q : Reg) (s : State) :
    exec (.xorRQ r q) s = .next (logicReg (fun a b => a ^^^ b) r q s) := rfl

theorem exec_notR (r : Reg) (s : State) :
    exec (.notR r) s =
      .next ((writeReg r (~~~regValue r s) (readReg r s).2).setLogicFlag (~~~regValue r s)) := rfl

theorem exec_cpRI (r : Reg) (imm : Nibble) (s : State) :
    exec (.cpRI r imm) s = .next ((readReg r s).2.setCompareFlags (regValue r s) imm) := rfl
theorem exec_cpRQ (r q : Reg) (s : State) :
    exec (.cpRQ r q) s =
      .next ((readReg q (readReg r s).2).2.setCompareFlags (regValue r s) (secondValue r q s)) := rfl
theorem exec_fanRI (r : Reg) (imm : Nibble) (s : State) :
    exec (.fanRI r imm) s = .next ((readReg r s).2.setLogicFlag (regValue r s &&& imm)) := rfl
theorem exec_fanRQ (r q : Reg) (s : State) :
    exec (.fanRQ r q) s =
      .next ((readReg q (readReg r s).2).2.setLogicFlag (regValue r s &&& secondValue r q s)) := rfl

theorem exec_rlc (d : BitVec 2) (r : Reg) (s : State) :
    exec (.rlc d r) s = .next (rotateReg rotateLeft r s) := rfl
theorem exec_rrc (r : Reg) (s : State) : exec (.rrc r) s = .next (rotateReg rotateRight r s) := rfl

/-- The next state together with the result and the carry that say what it holds. -/
theorem exists_next_of_result {i : Instr} {s t : State} {Q : State → Nibble → Bool → Prop}
    (answer : exec i s = .next t) (result : ∃ v c, Q t v c) : ∃ t v c, exec i s = .next t ∧ Q t v c :=
  let ⟨v, c, holds⟩ := result
  ⟨t, v, c, answer, holds⟩

/-! ### Addition and subtraction (R230 to R236) -/

/-- Settles O1: the four forms are the shapes `r, i` and `r, q` with the adder, with and without the incoming carry. -/
theorem additionsStoreTheSum : Obligations.AdditionsStoreTheSum := fun r q imm s hw =>
  ⟨decode_addRI r imm, decode_addRQ r q, decode_adcRI r imm, decode_adcRQ r q,
    exists_next_of_result (exec_addRI r imm s) (arithImm_stores add4 false r imm s SumIs add4_sumIs hw),
    exists_next_of_result (exec_addRQ r q s) (arithReg_stores add4 false r q s SumIs add4_sumIs hw),
    exists_next_of_result (exec_adcRI r imm s) (arithImm_stores add4 true r imm s SumIs add4_sumIs hw),
    exists_next_of_result (exec_adcRQ r q s) (arithReg_stores add4 true r q s SumIs add4_sumIs hw)⟩

/-- Settles O2: the same shapes with the subtractor. -/
theorem subtractionsStoreTheDifference : Obligations.SubtractionsStoreTheDifference := fun r q imm s hw =>
  ⟨decode_subRQ r q, decode_sbcRI r imm, decode_sbcRQ r q,
    exists_next_of_result (exec_subRQ r q s) (arithReg_stores sub4 false r q s DifferenceIs sub4_differenceIs hw),
    exists_next_of_result (exec_sbcRI r imm s) (arithImm_stores sub4 true r imm s DifferenceIs sub4_differenceIs hw),
    exists_next_of_result (exec_sbcRQ r q s) (arithReg_stores sub4 true r q s DifferenceIs sub4_differenceIs hw)⟩

/-! ### Digit steps (R251 to R254) -/

/-- `k` is the index register the shape steps, `j` the other. -/
theorem arithIndexed_advances (op : Adder) (r : Reg) (s : State) : ∀ {k j : IndexReg}, j ≠ k →
    IndexAdvanced (s.idx k) ((arithIndexed op k r s).idx k) 1 ∧ (arithIndexed op k r s).idx j = s.idx j
  | .x, .y, _ =>
    have ⟨stepped, kept⟩ := arithIndexed_x op r s
    ⟨(congrArg (IndexAdvanced s.x · 1) stepped).mpr (indexAdvanced_idxAdd s.x 1), kept⟩
  | .y, .x, _ =>
    have ⟨stepped, kept⟩ := arithIndexed_y op r s
    ⟨(congrArg (IndexAdvanced s.y · 1) stepped).mpr (indexAdvanced_idxAdd s.y 1), kept⟩
  | .x, .x, other | .y, .y, other => absurd rfl other

/-- The store of the shape and its increment, together. -/
theorem arithIndexed_effect (op : Adder) (k j : IndexReg) (r : Reg) (s : State)
    (P : Nibble → Nibble → Bool → Bool → Nibble → Bool → Prop)
    (hP : ∀ a b c d, P a b c d (op a b c d).1 (op a b c d).2) (hw : Memory.wf s.mem = true)
    (other : j ≠ k := by decide) :
    ∃ v c, P (regValue (cellOperand k) s) (secondValue (cellOperand k) r s) s.flagC s.flagD v c ∧
      StoresWithCZ (cellOperand k) v c s (arithIndexed op k r s) ∧
      IndexAdvanced (s.idx k) ((arithIndexed op k r s).idx k) 1 ∧ (arithIndexed op k r s).idx j = s.idx j :=
  let ⟨v, c, result, stored⟩ := arithIndexed_stores op k r s P hP hw
  ⟨v, c, result, stored, arithIndexed_advances op r s other⟩

/-- Settles O3: the four are one shape, with the adder or the subtractor, at `X` or at `Y`. -/
theorem digitStepsUpdateCellAndIndex : Obligations.DigitStepsUpdateCellAndIndex := fun r s hw =>
  ⟨decode_acpx r, decode_acpy r, decode_scpx r, decode_scpy r,
    exists_next_of_result (exec_acpx r s) (arithIndexed_effect add4 .x .y r s SumIs add4_sumIs hw),
    exists_next_of_result (exec_acpy r s) (arithIndexed_effect add4 .y .x r s SumIs add4_sumIs hw),
    exists_next_of_result (exec_scpx r s) (arithIndexed_effect sub4 .x .y r s DifferenceIs sub4_differenceIs hw),
    exists_next_of_result (exec_scpy r s) (arithIndexed_effect sub4 .y .x r s DifferenceIs sub4_differenceIs hw)⟩

/-! ### Logic (R237 to R242, R255) -/

theorem logicImm_stores (op : Nibble → Nibble → Nibble) (r : Reg) (imm : Nibble) (s : State)
    (hw : Memory.wf s.mem = true) : StoresWithZ r (op (regValue r s) imm) s (logicImm op r imm s) :=
  storesWithZ_of r _ s _ hw (by simp) (by simp) (by simp) (by simp) (by simp)

theorem logicReg_stores (op : Nibble → Nibble → Nibble) (r q : Reg) (s : State) (hw : Memory.wf s.mem = true) :
    StoresWithZ r (op (regValue r s) (secondValue r q s)) s (logicReg op r q s) :=
  storesWithZ_of r _ s _ hw (by simp) (by simp) (by simp) (by simp) (by simp)

theorem complement_stores (r : Reg) (s : State) (hw : Memory.wf s.mem = true) :
    StoresWithZ r (~~~regValue r s) s
      ((writeReg r (~~~regValue r s) (readReg r s).2).setLogicFlag (~~~regValue r s)) :=
  storesWithZ_of r _ s _ hw (by simp) (by simp) (by simp) (by simp) (by simp)

/-- Settles O4: the six two-operand forms are the logic shapes; the complement of a nibble is its distance to 15. -/
theorem logicInstructionsStoreBitwiseResults : Obligations.LogicInstructionsStoreBitwiseResults :=
  fun r q imm s hw =>
  ⟨decode_andRI r imm, decode_andRQ r q, decode_orRI r imm, decode_orRQ r q, decode_xorRI r imm, decode_xorRQ r q,
    ⟨_, exec_andRI r imm s, logicImm_stores _ r imm s hw⟩,
    ⟨_, exec_andRQ r q s, logicReg_stores _ r q s hw⟩,
    ⟨_, exec_orRI r imm s, logicImm_stores _ r imm s hw⟩,
    ⟨_, exec_orRQ r q s, logicReg_stores _ r q s hw⟩,
    ⟨_, exec_xorRI r imm s, logicImm_stores _ r imm s hw⟩,
    ⟨_, exec_xorRQ r q s, logicReg_stores _ r q s hw⟩,
    ⟨_, _, exec_notR r s, BitVec.toNat_not, complement_stores r s hw⟩⟩

/-! ### Comparisons and tests (R243 to R246) -/

/-- Settles O5: after the reads, which change no register and no cell, each form is one update of `F`. -/
theorem comparesAndTestsWriteFlagsAlone : Obligations.ComparesAndTestsWriteFlagsAlone := fun r q imm s =>
  ⟨decode_cpRI r imm, decode_cpRQ r q, decode_fanRI r imm, decode_fanRQ r q,
    ⟨_, exec_cpRI r imm s, flagsCompare_of _ _ s _ (by simp), rfl, by simp⟩,
    ⟨_, exec_cpRQ r q s, flagsCompare_of _ _ s _ (by simp), rfl, by simp⟩,
    ⟨_, exec_fanRI r imm s, flagsTest_of _ s _ (by simp), rfl, by simp⟩,
    ⟨_, exec_fanRQ r q s, flagsTest_of _ s _ (by simp), rfl, by simp⟩⟩

/-! ### Rotations (R247, R248) -/

/-- The five bits `c`, `v` are the five bits `a`, `cin` moved up by one, the incoming carry lowest. -/
def RotatedLeft (a : Nibble) (cin : Bool) (v : Nibble) (c : Bool) : Prop :=
  v.toNat + 16 * c.toNat = 2 * a.toNat + cin.toNat

/-- The five bits `v`, `c` are the five bits `cin`, `a`, the carry that comes out lowest. -/
def RotatedRight (a : Nibble) (cin : Bool) (v : Nibble) (c : Bool) : Prop :=
  2 * v.toNat + c.toNat = a.toNat + 16 * cin.toNat

/-- Settles O6: both are the rotation shape, which does not look at the ignored field. -/
theorem rotatesGoThroughCarry : Obligations.RotatesGoThroughCarry := fun d r s hw =>
  ⟨decode_rlc d r, decode_rrc r,
    exists_next_of_result (exec_rlc d r s) (rotateReg_stores rotateLeft r s RotatedLeft rotateLeft_toNat hw),
    exists_next_of_result (exec_rrc r s) (rotateReg_stores rotateRight r s RotatedRight rotateRight_toNat hw)⟩

/-! ### `INC Mn` and `DEC Mn` (R249, R250) -/

/-- What the two share: the cell and 1 through the adder, with no carry in and without the decimal flag. -/
def countCell (op : Adder) (n : Nibble) (s : State) : State :=
  (memWrite (mnAddr n) (op (memRead (mnAddr n) s).1 1 false false).1 (memRead (mnAddr n) s).2).setArithFlags
    (op (memRead (mnAddr n) s).1 1 false false)

theorem exec_incMn (n : Nibble) (s : State) : exec (.incMn n) s = .next (countCell add4 n s) := rfl
theorem exec_decMn (n : Nibble) (s : State) : exec (.decMn n) s = .next (countCell sub4 n s) := rfl

theorem add4_one_eq : ∀ a : Nibble, add4 a 1 false false = (a + 1, a == 15) := by decide
theorem sub4_one_eq : ∀ a : Nibble, sub4 a 1 false false = (a - 1, a == 0) := by decide

theorem nibble_add_one_beq_zero : ∀ a : Nibble, (a + 1 == 0) = (a == 15) := by decide
theorem nibble_sub_one_beq_zero : ∀ a : Nibble, (a - 1 == 0) = (a == 1) := by decide

theorem nibble_sub_one_toNat (a : Nibble) : (a - 1).toNat = (a.toNat + 15) % 16 := by
  rw [BitVec.toNat_sub, Nat.add_comm]
  rfl

/-- The premise says what the adder makes of the cell and 1. -/
theorem countCell_effect {op : Adder} (n : Nibble) (s : State) {v : Nibble} {c : Bool} (hw : Memory.wf s.mem = true)
    (result : op (memRead (mnAddr n) s).1 1 false false = (v, c)) :
    cellReceives (mnAddr n) v s (countCell op n s) ∧ FlagsAre (countCell op n s) c (v == 0) s.flagD s.flagI := by
  rw [countCell, result]
  have written : cellReceives (mnAddr n) v s (memWrite (mnAddr n) v (memRead (mnAddr n) s).2) :=
    cellReceives_memWrite (mnAddr n) v s _ hw (by simp) (by simp)
  refine ⟨cellReceives_congr _ v s _ _ written (by simp), ?flags⟩
  simpa only [memWrite_keeps, memRead_keeps] using
    flagsAre_setArithFlags (memWrite (mnAddr n) v (memRead (mnAddr n) s).2) (v, c)

/-- Settles O7: both are `countCell`; a nibble plus or minus 1 as a number, and when it is 0, decide the rest. -/
theorem shortCellCountersWrap : Obligations.ShortCellCountersWrap := by
  intro n s hw
  have incremented := countCell_effect n s hw (add4_one_eq _)
  have decremented := countCell_effect n s hw (sub4_one_eq _)
  rw [nibble_add_one_beq_zero] at incremented
  rw [nibble_sub_one_beq_zero] at decremented
  exact ⟨decode_incMn n, decode_decMn n,
    ⟨_, _, exec_incMn n s, BitVec.toNat_add _ _, incremented⟩,
    ⟨_, _, exec_decMn n s, nibble_sub_one_toNat _, decremented⟩⟩

end Sys2Proof.Machine
end

section
/-! Settles the raising of an interrupt, the pin edges that raise one, and the entry into one (spec/60_exceptions.md R304, R306,
R309). -/

namespace Sys2Proof.Machine

/-! ### Raising (R304) -/

/-- A slot after its bit `b` has been raised. -/
def SlotState.raise (b : BitVec 2) (g : SlotState) : SlotState :=
  { g with factor := g.factor ||| (1#4 <<< b.toNat), triggered := g.triggered || g.mask.getLsbD b.toNat }

@[simp] theorem SlotState.raise_factor (b : BitVec 2) (g : SlotState) :
    (g.raise b).factor = g.factor ||| (1#4 <<< b.toNat) := rfl
@[simp] theorem SlotState.raise_mask (b : BitVec 2) (g : SlotState) : (g.raise b).mask = g.mask := rfl

theorem SlotState.raise_triggered (b : BitVec 2) (g : SlotState) :
    (g.raise b).triggered = true ↔ g.triggered = true ∨ g.mask.getLsbD b.toNat = true := Bool.or_eq_true_iff

/-- Raising the same bit twice is raising it once, whatever the mask. -/
theorem SlotState.raise_raise (b : BitVec 2) (g : SlotState) : (g.raise b).raise b = g.raise b := by
  simp [SlotState.raise, BitVec.or_assoc]

theorem getLsbD_or_bit (f : Nibble) (b : BitVec 2) :
    ∀ k < 4, (f ||| (1#4 <<< b.toNat)).getLsbD k = (f.getLsbD k || decide (k = b.toNat)) := by
  revert f b; decide

/-- `GenerateInterrupt` writes one slot alone. -/
theorem generateInterrupt_eq (i : SlotId) (b : BitVec 2) (s : State) :
    generateInterrupt i b s = { s with slots := s.slots.set i ((s.slots.get i).raise b) } := by
  unfold generateInterrupt
  cases masked : (s.slots.get i).mask.getLsbD b.toNat <;>
    simp [State.setFactor, State.setTriggered, State.setSlots, SlotState.raise, masked]

/-- Settles O45: the slot that `GenerateInterrupt` writes is the raised one, bit by bit. -/
theorem raisingSetsFactorAndLatch : Obligations.RaisingSetsFactorAndLatch := fun s i b =>
  ⟨(s.slots.get i).raise b, generateInterrupt_eq i b s, getLsbD_or_bit _ b, rfl, SlotState.raise_triggered b _⟩

/-! ### Falling edges (R309) -/

theorem getLsbD_putFlag_bit (f : Nibble) (j : BitVec 2) (v : Bool) :
    ∀ k < 4, (putFlag f (1#4 <<< j.toNat) v).getLsbD k = if k = j.toNat then v else f.getLsbD k := by
  revert f j v; decide

/-- A pin number is its port bit and its number in the port. -/
theorem pin_fields (port : BitVec 1) (j : BitVec 2) :
    (port ++ j).getLsbD 2 = decide (port = 1) ∧ (port ++ j).extractLsb' 0 2 = j := by
  revert port j; decide

theorem setInputPin_k0 (j : BitVec 2) (level : Bool) (s : State) :
    setInputPin (0#1 ++ j) level s =
      (if s.k0.getLsbD j.toNat = true ∧ level = false then generateInterrupt .k0Pins j else id)
        { s with k0 := putFlag s.k0 (1#4 <<< j.toNat) level } := by
  obtain ⟨port, number⟩ := pin_fields 0#1 j
  unfold setInputPin
  rw [port, number]
  cases level <;> cases falls : s.k0.getLsbD j.toNat <;> simp [falls] <;> rfl

theorem setInputPin_k1 (j : BitVec 2) (level : Bool) (s : State) :
    setInputPin (1#1 ++ j) level s =
      (if s.k1.getLsbD j.toNat = true ∧ level = false then generateInterrupt .k1Pins j else id)
        { s with k1 := putFlag s.k1 (1#4 <<< j.toNat) level } := by
  obtain ⟨port, number⟩ := pin_fields 1#1 j
  unfold setInputPin
  rw [port, number]
  cases level <;> cases falls : s.k1.getLsbD j.toNat <;> simp [falls] <;> rfl

/-- Settles O49: each port by its own equation; the pin's level is one bit of the port. -/
theorem fallingEdgesRaiseThePinSlots : Obligations.FallingEdgesRaiseThePinSlots := fun s j level =>
  ⟨⟨_, setInputPin_k0 j level s, getLsbD_putFlag_bit s.k0 j level⟩,
    ⟨_, setInputPin_k1 j level s, getLsbD_putFlag_bit s.k1 j level⟩⟩

/-! ### What a write does to the slots, and what pushing a return address leaves alone (R112, R312) -/

/-- No write changes a factor nibble or a latch. -/
theorem memWrite_slot_flags (a : DataAddr) (n : Nibble) (s : State) (j : SlotId) :
    ((memWrite a n s).slots.get j).factor = (s.slots.get j).factor ∧
      ((memWrite a n s).slots.get j).triggered = (s.slots.get j).triggered := by
  have register : ((ioWrite a n (s.setCell a n)).slots.get j).factor = (s.slots.get j).factor ∧
      ((ioWrite a n (s.setCell a n)).slots.get j).triggered = (s.slots.get j).triggered := by
    rcases ioWrite_slot a n (s.setCell a n) j with kept | ⟨-, masked⟩
    · simp [kept]
    · simp [masked]
  unfold memWrite
  cases s.inRam a <;> cases s.inDisplay a <;> cases s.inIo a <;> simp [register]

/-- What every write to a frame cell and every move of `SP` keeps, `PushPC` keeps. -/
theorem pushPC_induction (P : State → Prop) (ra : CodeAddr) (s : State)
    (write : ∀ k ∈ pushFrame s, ∀ n u, P u → P (memWrite k n u)) (move : ∀ v u, P u → P (u.setSp v)) (start : P s) :
    P (pushPC ra s) := by
  have frame (d : Int) (hd : d ∈ [-1, -2, -3]) (n : Nibble) (u : State) (hu : P u) :
      P (frameWrite (frameAddr s.params.stackWrap s.sp d) n u) := by
    cases found : frameAddr s.params.stackWrap s.sp d with
    | none => exact hu
    | some k =>
      refine write k ?_ n u hu
      simp only [List.mem_cons, List.not_mem_nil, or_false] at hd
      rcases hd with rfl | rfl | rfl <;> simp [pushFrame, found]
  exact move _ _ (frame (-3) (by simp) _ _ (frame (-2) (by simp) _ _ (frame (-1) (by simp) _ _ start)))

theorem pushPC_slot_flags (ra : CodeAddr) (s : State) (j : SlotId) :
    ((pushPC ra s).slots.get j).factor = (s.slots.get j).factor ∧
      ((pushPC ra s).slots.get j).triggered = (s.slots.get j).triggered :=
  pushPC_induction (fun u => (u.slots.get j).factor = (s.slots.get j).factor ∧
      (u.slots.get j).triggered = (s.slots.get j).triggered) ra s
    (fun k _ n u hu => by simpa only [memWrite_slot_flags] using hu) (fun _ _ hu => hu) ⟨rfl, rfl⟩

theorem pushPC_slots_of_plain (ra : CodeAddr) (s : State) (plain : ∀ k ∈ pushFrame s, s.ioAccess k = false) :
    (pushPC ra s).slots = s.slots :=
  (pushPC_induction (fun u => u.slots = s.slots ∧ ∀ k, u.ioAccess k = s.ioAccess k) ra s
    (fun k hk n u ⟨slots, access⟩ =>
      ⟨(memWrite_devices k n u ((access k).trans (plain k hk))).1.trans slots, by simpa using access⟩)
    (fun _ _ hu => hu) ⟨rfl, fun _ => rfl⟩).1

theorem pushPC_cell_other (ra : CodeAddr) (s : State) (k : DataAddr) (h : k ∉ pushFrame s ∨ s.backed k = false) :
    (pushPC ra s).cell k = s.cell k := by
  refine (pushPC_induction (fun u => u.cell k = s.cell k ∧ u.backed k = s.backed k) ra s
    (fun a ha n u hu => ?_) (fun _ _ hu => hu) ⟨rfl, rfl⟩).1
  obtain ⟨cell, backed⟩ := hu
  refine ⟨?_, by simpa using backed⟩
  by_cases same : k = a
  · subst same
    have hole : u.backed k = false := backed.trans (h.resolve_left (fun outside => outside ha))
    rw [memWrite_hole k n u hole, cell]
  · rw [memWrite_cell_other a k n u same, cell]

/-! ### Entry (R306) -/

@[simp] theorem enterInterrupt_mem (i : SlotId) (s : State) : (enterInterrupt i s).mem = (pushPC s.pc s).mem := by
  simp [enterInterrupt]

theorem enterInterrupt_sp (i : SlotId) (s : State) : (enterInterrupt i s).sp = s.sp - 3 := by
  simp [enterInterrupt, pushPC_sp]

theorem enterInterrupt_flags (i : SlotId) (s : State) : FlagsAre (enterInterrupt i s) s.flagC s.flagZ s.flagD false := by
  simp [FlagsAre, enterInterrupt]

theorem enterInterrupt_np (i : SlotId) (s : State) : (enterInterrupt i s).np = bankPageOf (npBank s.np) 1 := by
  simp [enterInterrupt]

theorem enterInterrupt_pc (i : SlotId) (s : State) :
    (enterInterrupt i s).pc = codeAddrOf (pcBank s.pc) 1 (vectorStep i) := by
  simp [enterInterrupt]

theorem enterInterrupt_callDepth (i : SlotId) (s : State) : (enterInterrupt i s).callDepth = s.callDepth + 1 := by
  simp [enterInterrupt, State.deeper]

theorem enterInterrupt_ticks (i : SlotId) (s : State) : (enterInterrupt i s).ticks = s.ticks + 12 := by
  simp [enterInterrupt, entryTicks]

theorem enterInterrupt_slots (i : SlotId) (s : State) : (enterInterrupt i s).slots =
    (pushPC s.pc s).slots.set i { (pushPC s.pc s).slots.get i with triggered := false } := by
  simp [enterInterrupt, State.setTriggered]

theorem enterInterrupt_slot_same (i : SlotId) (s : State) :
    (enterInterrupt i s).slots.get i = { (pushPC s.pc s).slots.get i with triggered := false } := by
  rw [enterInterrupt_slots, Slots.get_set_same]

theorem enterInterrupt_slot_other (i j : SlotId) (s : State) (h : j ≠ i) :
    (enterInterrupt i s).slots.get j = (pushPC s.pc s).slots.get j := by
  rw [enterInterrupt_slots, Slots.get_set_other _ _ _ _ h]

/-- Entry changes no factor nibble, no latch but the slot's own, and no mask where the pushed cells are no I/O registers. -/
theorem enterInterrupt_slot (i j : SlotId) (s : State) :
    ((enterInterrupt i s).slots.get j).factor = (s.slots.get j).factor ∧
      (j ≠ i → ((enterInterrupt i s).slots.get j).triggered = (s.slots.get j).triggered) ∧
      ((∀ k ∈ pushFrame s, s.ioAccess k = false) →
        ((enterInterrupt i s).slots.get j).mask = (s.slots.get j).mask) := by
  obtain ⟨factor, latch⟩ := pushPC_slot_flags s.pc s j
  by_cases same : j = i
  · subst same
    rw [enterInterrupt_slot_same]
    exact ⟨factor, fun other => absurd rfl other, fun plain => by rw [pushPC_slots_of_plain s.pc s plain]⟩
  · rw [enterInterrupt_slot_other i j s same]
    exact ⟨factor, fun _ => latch, fun plain => by rw [pushPC_slots_of_plain s.pc s plain]⟩

theorem enterInterrupt_cell_other (i : SlotId) (s : State) (k : DataAddr) (h : k ∉ pushFrame s ∨ s.backed k = false) :
    (enterInterrupt i s).cell k = s.cell k := by
  rw [State.cell, enterInterrupt_mem]
  exact pushPC_cell_other s.pc s k h

/-- Settles O46: one lemma per field that the entry writes, and what `PushPC` leaves alone. -/
theorem interruptEntryFollowsTheRule : Obligations.InterruptEntryFollowsTheRule := by
  intro s i hw
  refine ⟨frameHolds_congr _ _ _ _ (pushPC_holds s.pc s hw) (enterInterrupt_mem i s), ?sp, enterInterrupt_flags i s, ?np, ?pc,
    enterInterrupt_callDepth i s, enterInterrupt_ticks i s, ?latch, fun j => enterInterrupt_slot i j s,
    enterInterrupt_cell_other i s, by simp⟩
  case sp => rw [enterInterrupt_sp, octet_sub_three_toNat]
  case np => rw [enterInterrupt_np, bankPageOf, bank_append_toNat, npBank_toNat]; rfl
  case pc => rw [enterInterrupt_pc, codeAddrOf_toNat, pcBank_toNat]; cases i <;> rfl
  case latch => rw [enterInterrupt_slot_same]

end Sys2Proof.Machine
end

section
/-! Settles the servicing of the two timers (spec/60_exceptions.md R321 to R324). -/

namespace Sys2Proof.Machine

/-! ### The clock timer (R322) -/

theorem clockPeriod_eq (s : State) : clockPeriod s =
    { s with
      clkStamp := s.clkStamp + s.params.clkPeriod
      slots := s.slots.set .clockTimer (s.slots.clockTimer.raise 3) } :=
  generateInterrupt_eq .clockTimer 3 (s.setClkStamp (s.clkStamp + s.params.clkPeriod))

/-- However many passes run, the slot is raised once: a second raise of the same bit does nothing. -/
theorem clockLoop_succ (n : Nat) (s : State) : clockLoop (n + 1) s =
    { s with
      clkStamp := s.clkStamp + (n + 1) * s.params.clkPeriod
      slots := s.slots.set .clockTimer (s.slots.clockTimer.raise 3) } := by
  induction n generalizing s with
  | zero => rw [zero_add, one_mul, ← clockPeriod_eq]; rfl
  | succ n ih =>
    have stamp : s.clkStamp + s.params.clkPeriod + (n + 1) * s.params.clkPeriod =
        s.clkStamp + (n + 1 + 1) * s.params.clkPeriod := by ring
    have again : (s.slots.set .clockTimer (s.slots.clockTimer.raise 3)).clockTimer.raise 3 =
        s.slots.clockTimer.raise 3 := SlotState.raise_raise 3 _
    rw [clockLoop, ih, clockPeriod_eq]
    simp only [stamp, again, slots_set_set]

/-- The slot of the clock timer after `n` elapsed periods. -/
def clockSlotAfter (n : Nat) (g : SlotState) : SlotState := if n = 0 then g else g.raise 3

theorem clockLoop_eq (n : Nat) (s : State) : clockLoop n s =
    { s with
      clkStamp := s.clkStamp + n * s.params.clkPeriod
      slots := s.slots.set .clockTimer (clockSlotAfter n s.slots.clockTimer) } := by
  cases n with
  | zero => simp [clockLoop, clockSlotAfter, Slots.set]
  | succ n => exact clockLoop_succ n s

/-- Settles O50: the loop runs once for each elapsed period, whose number the two bounds fix. -/
theorem clockTimerAppliesEveryPeriod : Obligations.ClockTimerAppliesEveryPeriod := by
  refine ⟨rfl, fun s period past => ?_⟩
  obtain ⟨reached, within⟩ := elapsedPeriods_bounds s.params.clkPeriod s.ticks s.clkStamp period past
  refine ⟨_, _, clockLoop_eq (elapsedPeriods s.params.clkPeriod s.ticks s.clkStamp) s, reached, within, fun idle => ?_,
    fun elapsed => ?_⟩
  · rw [clockSlotAfter, if_pos idle]
  · rw [clockSlotAfter, if_neg elapsed.ne']
    exact ⟨rfl, rfl, SlotState.raise_triggered 3 _⟩

/-! ### The programmable timer: what its loop writes, and its passes in order (R323) -/

theorem progPeriodPass_writes (s : State) : ∃ count slots, progPeriodPass s =
    { s with ptStamp := s.ptStamp + s.params.progPeriod, ptData := count, slots := slots } := by
  by_cases last : s.ptData = 1
  · exact ⟨_, _, (progPeriodPass_reloads s last).trans (generateInterrupt_eq _ _ _)⟩
  · exact ⟨_, _, progPeriodPass_counts s last⟩

theorem progLoop_writes (n : Nat) (s : State) : ∃ count slots, progLoop n s =
    { s with ptStamp := s.ptStamp + n * s.params.progPeriod, ptData := count, slots := slots } := by
  induction n generalizing s with
  | zero => exact ⟨s.ptData, s.slots, by simp [progLoop]⟩
  | succ n ih =>
    obtain ⟨_, _, pass⟩ := progPeriodPass_writes s
    obtain ⟨count, slots, rest⟩ := ih (progPeriodPass s)
    refine ⟨count, slots, ?_⟩
    have stamp : s.ptStamp + s.params.progPeriod + n * s.params.progPeriod =
        s.ptStamp + (n + 1) * s.params.progPeriod := by ring
    rw [progLoop, rest, pass]
    simp only [stamp]

theorem progLoop_ptStamp (n : Nat) (s : State) : (progLoop n s).ptStamp = s.ptStamp + n * s.params.progPeriod := by
  obtain ⟨_, _, writes⟩ := progLoop_writes n s
  rw [writes]

theorem progLoop_ptReload (n : Nat) (s : State) : (progLoop n s).ptReload = s.ptReload := by simp

/-- The last pass of the loop, seen from the others. -/
theorem progLoop_succ_last (n : Nat) (s : State) : progLoop (n + 1) s = progPeriodPass (progLoop n s) := by
  induction n generalizing s with
  | zero => rfl
  | succ n ih => rw [progLoop, ih, progLoop]

/-! ### The count after each pass -/

/-- The number of passes from a count to the next underflow: the count, or 256 for a count of 0. -/
def passesToUnderflow (count : Octet) : Nat := (count.toNat + 255) % 256 + 1

theorem passesToUnderflow_bounds (count : Octet) :
    0 < passesToUnderflow count ∧ passesToUnderflow count ≤ 256 ∧ passesToUnderflow count % 256 = count.toNat := by
  have := count.isLt
  unfold passesToUnderflow
  omega

/-- A count that is `m` passes after `start`, below the underflow. -/
def CountedDown (start : Octet) (m : Nat) (count : Octet) : Prop := count.toNat = (start.toNat + 256 - m) % 256

theorem CountedDown.eq_one_iff {start count : Octet} {m : Nat} (h : CountedDown start m count)
    (hm : m < passesToUnderflow start) : count = 1 ↔ m + 1 = passesToUnderflow start := by
  obtain ⟨-, -, number⟩ := passesToUnderflow_bounds start
  have := start.isLt
  unfold CountedDown at h
  unfold passesToUnderflow at *
  rw [← BitVec.toNat_inj, h, show (1 : Octet).toNat = 1 from rfl]
  omega

theorem CountedDown.sub_one {start count : Octet} {m : Nat} (h : CountedDown start m count)
    (hm : m + 1 < passesToUnderflow start) : CountedDown start (m + 1) (count - 1) := by
  obtain ⟨-, bound, -⟩ := passesToUnderflow_bounds start
  have := start.isLt
  unfold CountedDown at *
  rw [octet_sub_one_toNat, h]
  omega

theorem countedDown_zero (start : Octet) : CountedDown start 0 start := by
  have := start.isLt
  unfold CountedDown
  omega

/-- Before the first underflow the loop counts down and raises nothing. -/
theorem progLoop_before_underflow (n : Nat) (s : State) (h : n < passesToUnderflow s.ptData) :
    CountedDown s.ptData n (progLoop n s).ptData ∧ (progLoop n s).slots = s.slots := by
  induction n with
  | zero => exact ⟨countedDown_zero s.ptData, rfl⟩
  | succ n ih =>
    obtain ⟨count, slots⟩ := ih (Nat.lt_of_succ_lt h)
    have more : (progLoop n s).ptData ≠ 1 := fun last =>
      h.ne ((count.eq_one_iff (Nat.lt_of_succ_lt h)).mp last)
    rw [progLoop_succ_last, progPeriodPass_counts _ more]
    exact ⟨count.sub_one h, slots⟩

/-- A pass from the last count before an underflow. -/
theorem progPeriodPass_underflow (s : State) (h : s.ptData = 1) :
    (progPeriodPass s).ptData = s.ptReload ∧
      (progPeriodPass s).slots = s.slots.set .progTimer (s.slots.progTimer.raise 0) := by
  rw [progPeriodPass_reloads s h, generateInterrupt_eq]
  exact ⟨rfl, rfl⟩

/-- From the first underflow on, the count follows the reload value, and bit 0 of slot 0 has been raised. -/
theorem progLoop_from_underflow (k : Nat) (s : State) :
    CountedDown s.ptReload (k % passesToUnderflow s.ptReload) (progLoop (passesToUnderflow s.ptData + k) s).ptData ∧
      (progLoop (passesToUnderflow s.ptData + k) s).slots = s.slots.set .progTimer (s.slots.progTimer.raise 0) := by
  induction k with
  | zero =>
    obtain ⟨m, first⟩ := Nat.exists_eq_add_one.mpr (passesToUnderflow_bounds s.ptData).1
    obtain ⟨count, slots⟩ := progLoop_before_underflow m s (by omega)
    have last : (progLoop m s).ptData = 1 := (count.eq_one_iff (by omega)).mpr first.symm
    obtain ⟨reload, raised⟩ := progPeriodPass_underflow (progLoop m s) last
    rw [Nat.add_zero, first, progLoop_succ_last, reload, raised, slots, Nat.zero_mod, progLoop_ptReload]
    exact ⟨countedDown_zero s.ptReload, rfl⟩
  | succ k ih =>
    obtain ⟨count, slots⟩ := ih
    have below := Nat.mod_lt k (passesToUnderflow_bounds s.ptReload).1
    rw [← Nat.add_assoc, progLoop_succ_last]
    by_cases last : (progLoop (passesToUnderflow s.ptData + k) s).ptData = 1
    · obtain ⟨reload, raised⟩ := progPeriodPass_underflow _ last
      have wraps : (k + 1) % passesToUnderflow s.ptReload = 0 := by
        rw [← Nat.mod_add_mod, (count.eq_one_iff below).mp last, Nat.mod_self]
      rw [reload, raised, slots, wraps, slots_set_set, progLoop_ptReload]
      exact ⟨countedDown_zero s.ptReload, congrArg _ (SlotState.raise_raise 0 _)⟩
    · have more : k % passesToUnderflow s.ptReload + 1 < passesToUnderflow s.ptReload :=
        lt_of_le_of_ne below (fun e => last ((count.eq_one_iff below).mpr e))
      have moves : (k + 1) % passesToUnderflow s.ptReload = k % passesToUnderflow s.ptReload + 1 := by
        rw [← Nat.mod_add_mod, Nat.mod_eq_of_lt more]
      rw [progPeriodPass_counts _ last, moves]
      exact ⟨count.sub_one more, slots⟩

theorem serviceProgTimer_of_enabled (s : State) (h : s.ptEnabled = true) :
    serviceProgTimer s = progLoop (elapsedPeriods s.params.progPeriod s.ticks s.ptStamp) s := if_pos h

theorem serviceProgTimer_of_disabled (s : State) (h : s.ptEnabled = false) : serviceProgTimer s = s := by
  simp [serviceProgTimer, h]

theorem serviceProgTimer_writes (s : State) : ∃ stamp count slots, serviceProgTimer s =
    { s with ptStamp := stamp, ptData := count, slots := slots } := by
  rcases Bool.eq_false_or_eq_true s.ptEnabled with enabled | disabled
  · rw [serviceProgTimer_of_enabled s enabled]
    exact ⟨_, progLoop_writes _ s⟩
  · exact ⟨_, _, _, serviceProgTimer_of_disabled s disabled⟩

/-- Settles O51: the loop runs once for each elapsed period; up to the first underflow it counts down, from it on the count
follows the reload value. -/
theorem programmableTimerCountsDownAndReloads : Obligations.ProgrammableTimerCountsDownAndReloads := by
  refine ⟨rfl, fun s period past => ⟨serviceProgTimer_writes s, serviceProgTimer_of_disabled s, fun enabled => ?_⟩⟩
  obtain ⟨reached, within⟩ := elapsedPeriods_bounds s.params.progPeriod s.ticks s.ptStamp period past
  rw [serviceProgTimer_of_enabled s enabled]
  refine ⟨_, progLoop_ptStamp _ s, reached, within, fun below => ?_, fun underflow => ?_⟩
  · exact (progLoop_before_underflow _ s below).symm
  · obtain ⟨k, passes⟩ := Nat.exists_eq_add_of_le underflow
    obtain ⟨count, slots⟩ := progLoop_from_underflow k s
    rw [passes, Nat.add_sub_cancel_left]
    exact ⟨_, slots, count, rfl, rfl, SlotState.raise_triggered 0 _⟩

end Sys2Proof.Machine
end

section
/-! Settles the interrupt-mask registers, the timer registers, the ports and the other registers of the I/O range
(spec/60_exceptions.md R311 to R318). -/

namespace Sys2Proof.Machine

/-! ### The register map (R25) -/

/-- The interrupt-mask register of a slot (R311). -/
def maskAddr : SlotId → DataAddr
  | .clockTimer => 0xF10
  | .stopwatch => 0xF11
  | .progTimer => 0xF12
  | .serial => 0xF13
  | .k0Pins => 0xF14
  | .k1Pins => 0xF15

/-- The address of a register; the registers of R318, which share one name, have no one address. -/
def IoReg.addr : IoReg → DataAddr
  | .factorFlags i => factorAddr i
  | .intMask i => maskAddr i
  | .ptDataLow => 0xF24
  | .ptDataHigh => 0xF25
  | .ptReloadLow => 0xF26
  | .ptReloadHigh => 0xF27
  | .k0Port => 0xF40
  | .k1Port => 0xF42
  | .outputPort => 0xF54
  | .clockSwitch => 0xF70
  | .lcdControl => 0xF71
  | .lcdContrast => 0xF72
  | .svd => 0xF73
  | .buzzerControl1 => 0xF74
  | .buzzerControl2 => 0xF75
  | .clockReset => 0xF76
  | .stopwatchControl => 0xF77
  | .ptControl => 0xF78
  | .ptClockSelect => 0xF79
  | .unimplemented => 0

theorem ioReg_addr (r : IoReg) (h : r ≠ .unimplemented) : ioReg r.addr = r := by
  cases r
  case unimplemented => exact absurd rfl h
  case factorFlags i => cases i <;> rfl
  case intMask i => cases i <;> rfl
  all_goals rfl

theorem addr_ioReg (k : DataAddr) : ioReg k = .unimplemented ∨ (ioReg k).addr = k := by
  unfold ioReg
  split
  any_goals (apply Or.inr; apply BitVec.eq_of_toNat_eq; symm; assumption)
  exact .inl rfl

/-- A register other than those of R318 is at its address alone. -/
theorem ioReg_eq_iff (k : DataAddr) (r : IoReg) (h : r ≠ .unimplemented) : ioReg k = r ↔ k = r.addr := by
  constructor
  · rintro rfl
    exact ((addr_ioReg k).resolve_left h).symm
  · rintro rfl
    exact ioReg_addr r h

/-! ### An I/O access is one to the register (R43, R44) -/

theorem memRead_io (k : DataAddr) (s : State) (io : s.ioAccess k = true) :
    memRead k s = (ioValue k s, ioReadEffect k s) := by
  rw [← Prod.eta (memRead k s), memRead_value, memRead_state, if_pos io, if_pos io]

theorem memWrite_io (k : DataAddr) (n : Nibble) (s : State) (io : s.ioAccess k = true) :
    memWrite k n s = ioWrite k n (s.setCell k n) := by
  obtain ⟨⟨notRam, notDisplay⟩, inIo⟩ : (s.inRam k = false ∧ s.inDisplay k = false) ∧ s.inIo k = true := by
    simpa [State.ioAccess] using io
  simp [memWrite, notRam, notDisplay, inIo]

/-! ### The mask registers (R311, R312) -/

theorem ioReg_maskAddr (i : SlotId) : ioReg (maskAddr i) = .intMask i := ioReg_addr (.intMask i) (by simp)

theorem memRead_mask (i : SlotId) (s : State) (io : s.ioAccess (maskAddr i) = true) :
    memRead (maskAddr i) s = ((s.slots.get i).mask &&& maskReadBits i, s) := by
  rw [memRead_io _ s io, ioValue, ioReadEffect, ioReg_maskAddr]

/-- A mask register of four bits reads as the whole mask. -/
theorem memRead_fullMask (i : SlotId) (s : State) (io : s.ioAccess (maskAddr i) = true) (full : maskReadBits i = 0xF) :
    memRead (maskAddr i) s = ((s.slots.get i).mask, s) := by
  rw [memRead_mask i s io, full]
  exact congrArg (·, s) BitVec.and_allOnes

theorem memWrite_mask (i : SlotId) (n : Nibble) (s : State) (io : s.ioAccess (maskAddr i) = true) :
    (memWrite (maskAddr i) n s).slots =
      s.slots.set (maskWriteSlot i) { s.slots.get (maskWriteSlot i) with mask := n } := by
  rw [memWrite_io _ n s io, ioWrite, ioReg_maskAddr]
  rfl

/-- No mask register writes to the slot of K00 to K03. -/
theorem memWrite_k0Pins (k : DataAddr) (n : Nibble) (s : State) : (memWrite k n s).slots.k0Pins = s.slots.k0Pins := by
  have register : (ioWrite k n (s.setCell k n)).slots.get .k0Pins = s.slots.get .k0Pins := by
    rcases ioWrite_slot k n (s.setCell k n) .k0Pins with kept | ⟨other, -⟩
    · simpa using kept
    · exact absurd rfl other
  cases io : s.ioAccess k
  · rw [(memWrite_devices k n s io).1]
  · rw [memWrite_io k n s io]
    exact register

/-- Settles O43: the six registers are the mask registers of the six slots. -/
theorem maskRegistersReadStraightWriteSwapped : Obligations.MaskRegistersReadStraightWriteSwapped := by
  intro s n range
  have io (i : SlotId) : s.ioAccess (maskAddr i) = true := by
    apply range <;> cases i <;> decide
  exact ⟨memRead_fullMask .clockTimer s (io _) rfl, memRead_mask .stopwatch s (io _), memRead_mask .progTimer s (io _),
    memRead_mask .serial s (io _), memRead_fullMask .k0Pins s (io _) rfl, memRead_fullMask .k1Pins s (io _) rfl,
    memWrite_mask .clockTimer n s (io _), memWrite_mask .stopwatch n s (io _), memWrite_mask .progTimer n s (io _),
    memWrite_mask .serial n s (io _), memWrite_mask .k0Pins n s (io _), memWrite_mask .k1Pins n s (io _),
    fun k => memWrite_k0Pins k n s⟩

/-! ### The timer registers (R313) -/

theorem octet_low_toNat (v : Octet) : (v.extractLsb' 0 4).toNat = v.toNat % 16 := by
  simp [BitVec.extractLsb'_toNat]

theorem octet_high_toNat (v : Octet) : (v.extractLsb' 4 4).toNat = v.toNat / 16 := by
  have := v.isLt
  simp only [BitVec.extractLsb'_toNat, Nat.shiftRight_eq_div_pow]
  omega

theorem octet_putLow_toNat (v : Octet) (n : Nibble) :
    (v.extractLsb' 4 4 ++ n : Octet).toNat = 16 * (v.toNat / 16) + n.toNat := by
  rw [append_nibbles_toNat, octet_high_toNat]

theorem octet_putHigh_toNat (v : Octet) (n : Nibble) :
    (n ++ v.extractLsb' 0 4 : Octet).toNat = 16 * n.toNat + v.toNat % 16 := by
  rw [append_nibbles_toNat, octet_low_toNat]

theorem ioValue_ptControl_toNat (s : State) : (ioValue 0xF78 s).toNat = s.ptEnabled.toNat := by
  change (if s.ptEnabled = true then (1 : Nibble) else 0).toNat = _
  cases s.ptEnabled <;> rfl

theorem writePtControl_ptData (n : Nibble) (s : State) :
    (writePtControl n s).ptData = if n.getLsbD 1 = true then s.ptReload else s.ptData := by
  unfold writePtControl
  cases n.getLsbD 1 <;> cases n.getLsbD 0 <;> cases enabled : s.ptEnabled <;> simp [enabled]

theorem writePtControl_ptStamp (n : Nibble) (s : State) :
    (writePtControl n s).ptStamp = if n.getLsbD 0 = true ∧ s.ptEnabled = false then s.ticks else s.ptStamp := by
  unfold writePtControl
  cases n.getLsbD 1 <;> cases n.getLsbD 0 <;> cases enabled : s.ptEnabled <;> simp [enabled]

/-! ### The registers without a value, and those without a write rule (R316, R318) -/

/-- The registers that read as a value of their own. -/
def IoReg.hasValue : IoReg → Bool
  | .lcdContrast | .clockReset | .stopwatchControl | .ptClockSelect | .unimplemented => false
  | _ => true

/-- The registers whose write does more than to store the cell. -/
def IoReg.hasWriteRule : IoReg → Bool
  | .intMask _ | .ptReloadLow | .ptReloadHigh | .ptControl | .outputPort | .buzzerControl1 => true
  | _ => false

theorem ioRead_of_noValue (k : DataAddr) (s : State) (h : (ioReg k).hasValue = false) :
    ioValue k s = 0 ∧ ioReadEffect k s = s := by
  unfold ioValue ioReadEffect
  cases register : ioReg k <;> rw [register] at h
  case lcdContrast | clockReset | stopwatchControl | ptClockSelect | unimplemented => exact ⟨rfl, rfl⟩
  all_goals cases h

theorem ioWrite_of_noWriteRule (k : DataAddr) (n : Nibble) (s : State) (h : (ioReg k).hasWriteRule = false) :
    ioWrite k n s = s := by
  unfold ioWrite
  cases register : ioReg k <;> rw [register] at h
  case intMask | ptReloadLow | ptReloadHigh | ptControl | outputPort | buzzerControl1 => cases h

/-- Where the registers with a value are. -/
def valuedAddrs : List DataAddr :=
  [0xF00, 0xF01, 0xF02, 0xF03, 0xF04, 0xF05, 0xF10, 0xF11, 0xF12, 0xF13, 0xF14, 0xF15, 0xF24, 0xF25, 0xF26, 0xF27, 0xF40,
    0xF42, 0xF54, 0xF70, 0xF71, 0xF73, 0xF74, 0xF75, 0xF78]

/-- Where the registers with a write rule are. -/
def writeRuleAddrs : List DataAddr := [0xF10, 0xF11, 0xF12, 0xF13, 0xF14, 0xF15, 0xF26, 0xF27, 0xF54, 0xF74, 0xF78]

theorem addr_mem_valuedAddrs (r : IoReg) (h : r.hasValue = true) : r.addr ∈ valuedAddrs := by
  cases r
  case factorFlags i => cases i <;> decide
  case intMask i => cases i <;> decide
  case lcdContrast | clockReset | stopwatchControl | ptClockSelect | unimplemented => cases h
  all_goals decide

theorem addr_mem_writeRuleAddrs (r : IoReg) (h : r.hasWriteRule = true) : r.addr ∈ writeRuleAddrs := by
  cases r
  case intMask i => cases i <;> decide
  case ptReloadLow | ptReloadHigh | ptControl | outputPort | buzzerControl1 => decide
  all_goals cases h

theorem memRead_of_noValue (k : DataAddr) (s : State) (io : s.ioAccess k = true) (h : k ∉ valuedAddrs) :
    memRead k s = (0, s) := by
  have noValue : (ioReg k).hasValue = false := by
    rcases addr_ioReg k with nothing | here
    · rw [nothing]; rfl
    · exact Bool.eq_false_of_not_eq_true fun has => h (here ▸ addr_mem_valuedAddrs (ioReg k) has)
  obtain ⟨value, effect⟩ := ioRead_of_noValue k s noValue
  rw [memRead_io k s io, value, effect]

theorem memWrite_of_noWriteRule (k : DataAddr) (n : Nibble) (s : State) (io : s.ioAccess k = true)
    (h : k ∉ writeRuleAddrs) : memWrite k n s = s.setCell k n := by
  have noRule : (ioReg k).hasWriteRule = false := by
    rcases addr_ioReg k with nothing | here
    · rw [nothing]; rfl
    · exact Bool.eq_false_of_not_eq_true fun has => h (here ▸ addr_mem_writeRuleAddrs (ioReg k) has)
  rw [memWrite_io k n s io, ioWrite_of_noWriteRule k n _ noRule]

/-- Settles O44: each access is one to its register, whose value or write rule the map gives. -/
theorem timerAndPortRegistersReadAndWrite : Obligations.TimerAndPortRegistersReadAndWrite := by
  intro s n range
  have io (k : DataAddr) (h : 0xF24 ≤ k.toNat ∧ k.toNat ≤ 0xF7F := by decide) : s.ioAccess k = true := range k h.1 h.2
  have read (k : DataAddr) (h : 0xF24 ≤ k.toNat ∧ k.toNat ≤ 0xF7F := by decide) := memRead_io k s (io k h)
  have write (k : DataAddr) (h : 0xF24 ≤ k.toNat ∧ k.toNat ≤ 0xF7F := by decide) := memWrite_io k n s (io k h)
  rw [read 0xF24, read 0xF25, read 0xF26, read 0xF27, read 0xF78, read 0xF40, read 0xF42, read 0xF54, read 0xF70,
    read 0xF71, read 0xF73, read 0xF74, read 0xF75, write 0xF24, write 0xF25, write 0xF26, write 0xF27, write 0xF78,
    write 0xF54, write 0xF74]
  exact ⟨octet_low_toNat s.ptData, octet_high_toNat s.ptData, octet_low_toNat s.ptReload, octet_high_toNat s.ptReload,
    ioValue_ptControl_toNat s, rfl, rfl, octet_putLow_toNat s.ptReload n, rfl, octet_putHigh_toNat s.ptReload n, rfl, rfl,
    writePtControl_ptData n (s.setCell 0xF78 n), writePtControl_ptStamp n (s.setCell 0xF78 n), rfl, rfl, rfl, rfl, rfl, rfl,
    rfl, rfl, fun k inRange => memRead_of_noValue k s inRange, fun k inRange => memWrite_of_noWriteRule k n s inRange,
    rfl, rfl⟩

end Sys2Proof.Machine
end

section
/-! Settles the factor-flag registers (spec/60_exceptions.md R310): which instruction clears which. -/

namespace Sys2Proof.Machine

/-! ### One access to a factor-flag register -/

theorem ioReg_eq_factorFlags_iff (k : DataAddr) (i : SlotId) : ioReg k = .factorFlags i ↔ k = factorAddr i :=
  ioReg_eq_iff k (.factorFlags i) (by simp)

theorem ioReg_factorAddr (i : SlotId) : ioReg (factorAddr i) = .factorFlags i := (ioReg_eq_factorFlags_iff _ i).mpr rfl

theorem memRead_factor (i : SlotId) (s : State) (io : s.ioAccess (factorAddr i) = true) :
    memRead (factorAddr i) s =
      ((s.slots.get i).factor, { s with slots := s.slots.set i { s.slots.get i with factor := 0 } }) := by
  rw [memRead_io _ s io, ioValue, ioReadEffect, ioReg_factorAddr]
  rfl

theorem memRead_factor_again (i : SlotId) (s : State) (io : s.ioAccess (factorAddr i) = true) :
    (memRead (factorAddr i) (memRead (factorAddr i) s).2).1 = 0 := by
  rw [memRead_factor i (memRead (factorAddr i) s).2 (by simpa using io), memRead_factor i s io, Slots.get_set_same]

theorem memWrite_factor (i : SlotId) (n : Nibble) (s : State) (io : s.ioAccess (factorAddr i) = true) :
    memWrite (factorAddr i) n s = s.setCell (factorAddr i) n :=
  memWrite_of_noWriteRule _ n s io (by cases i <;> decide)

/-! ### The factor nibble and the latch of a slot, as accesses see them -/

/-- The factor nibble and the latch of a slot: what no write changes. -/
def State.raised (s : State) (i : SlotId) : Nibble × Bool := ((s.slots.get i).factor, (s.slots.get i).triggered)

theorem raised_dataSide (s : State) (i : SlotId) : s.dataSide.raised i = s.raised i := rfl

@[simp] theorem raised_memWrite (a : DataAddr) (n : Nibble) (s : State) (i : SlotId) :
    (memWrite a n s).raised i = s.raised i := by
  obtain ⟨factor, latch⟩ := memWrite_slot_flags a n s i
  rw [State.raised, factor, latch, State.raised]

@[simp] theorem raised_writeAll (l : List (DataAddr × Nibble)) (s : State) (i : SlotId) :
    (writeAll l s).raised i = s.raised i := by
  induction l generalizing s with
  | nil => rfl
  | cons p l ih => exact (ih _).trans (raised_memWrite p.1 p.2 s i)

/-- One read clears the factor nibble exactly when it reads the slot's register. -/
theorem raised_memRead (k : DataAddr) (s : State) (i : SlotId) (io : s.ioAccess (factorAddr i) = true) :
    (memRead k s).2.raised i = (if k = factorAddr i then 0 else (s.raised i).1, (s.raised i).2) := by
  have slot : (memRead k s).2.slots.get i =
      if k = factorAddr i then { s.slots.get i with factor := 0 } else s.slots.get i := by
    rw [memRead_state]
    by_cases here : k = factorAddr i
    · rw [if_pos (here ▸ io), ioReadEffect_slot, if_pos here, if_pos ((ioReg_eq_factorFlags_iff k i).mpr here)]
    · rw [if_neg here]
      split
      · rw [ioReadEffect_slot, if_neg (mt (ioReg_eq_factorFlags_iff k i).mp here)]
      · rfl
  rw [State.raised, slot]
  split <;> rfl

/-- So does any number of reads, when one of them reads that register. -/
theorem raised_readAll (l : List DataAddr) (s : State) (i : SlotId) (io : s.ioAccess (factorAddr i) = true) :
    (readAll l s).raised i = (if factorAddr i ∈ l then 0 else (s.raised i).1, (s.raised i).2) := by
  induction l generalizing s with
  | nil => rfl
  | cons k l ih =>
    refine (ih (memRead k s).2 (by simpa using io)).trans ?_
    rw [raised_memRead k s i io]
    by_cases here : k = factorAddr i
    · simp [here]
    · simp [here, Ne.symm here]

/-! ### What each shape of instruction reads

Each lemma is about the data side alone, where the updates of registers vanish; the writes vanish as they raise nothing. -/

@[simp] theorem regAddr_mx (s : State) : regAddr .mx s = [s.x] := rfl
@[simp] theorem regAddr_my (s : State) : regAddr .my s = [s.y] := rfl

@[simp] theorem readAll_nil (s : State) : readAll [] s = s := rfl

@[simp] theorem readAll_readAll (l m : List DataAddr) (s : State) : readAll m (readAll l s) = readAll (l ++ m) s :=
  List.foldl_append.symm

@[simp] theorem readAll_memRead (k : DataAddr) (l : List DataAddr) (s : State) :
    readAll l (memRead k s).2 = readAll (k :: l) s := rfl

@[simp] theorem raised_memRead_eq_readAll (k : DataAddr) (s : State) (i : SlotId) :
    (memRead k s).2.raised i = (readAll [k] s).raised i := rfl

@[simp] theorem raised_arithImm (op : Adder) (cin : Bool) (r : Reg) (imm : Nibble) (s : State) (i : SlotId) :
    (arithImm op cin r imm s).dataSide.raised i = (readAll (regAddr r s) s.dataSide).raised i := by
  simp [arithImm]

@[simp] theorem raised_arithReg (op : Adder) (cin : Bool) (r q : Reg) (s : State) (i : SlotId) :
    (arithReg op cin r q s).dataSide.raised i = (readAll (regAddr r s ++ regAddr q s) s.dataSide).raised i := by
  simp [arithReg]

@[simp] theorem raised_arithIndexed (op : Adder) (k : IndexReg) (r : Reg) (s : State) (i : SlotId) :
    (arithIndexed op k r s).dataSide.raised i = (readAll (s.idx k :: regAddr r s) s.dataSide).raised i := by
  simp [arithIndexed]

@[simp] theorem raised_logicImm (op : Nibble → Nibble → Nibble) (r : Reg) (imm : Nibble) (s : State) (i : SlotId) :
    (logicImm op r imm s).dataSide.raised i = (readAll (regAddr r s) s.dataSide).raised i := by
  simp [logicImm]

@[simp] theorem raised_logicReg (op : Nibble → Nibble → Nibble) (r q : Reg) (s : State) (i : SlotId) :
    (logicReg op r q s).dataSide.raised i = (readAll (regAddr r s ++ regAddr q s) s.dataSide).raised i := by
  simp [logicReg]

@[simp] theorem raised_rotateReg (op : Nibble → Bool → Nibble × Bool) (r : Reg) (s : State) (i : SlotId) :
    (rotateReg op r s).dataSide.raised i = (readAll (regAddr r s) s.dataSide).raised i := by
  simp [rotateReg]

@[simp] theorem raised_copyReg (r q : Reg) (s : State) (i : SlotId) :
    (copyReg r q s).dataSide.raised i = (readAll (regAddr q s) s.dataSide).raised i := by
  simp [copyReg]

@[simp] theorem raised_loadIdxField (put : DataAddr → Nibble → DataAddr) (k : IndexReg) (r : Reg) (s : State)
    (i : SlotId) : (loadIdxField put k r s).dataSide.raised i = (readAll (regAddr r s) s.dataSide).raised i := by
  simp [loadIdxField]

@[simp] theorem raised_storeIdxField (get : DataAddr → Nibble) (k : IndexReg) (r : Reg) (s : State) (i : SlotId) :
    (storeIdxField get k r s).dataSide.raised i = s.dataSide.raised i := by
  simp [storeIdxField]

@[simp] theorem dataSide_adcIdxField (get : DataAddr → Nibble) (put : DataAddr → Nibble → DataAddr) (k : IndexReg)
    (imm : Nibble) (s : State) : (adcIdxField get put k imm s).dataSide = s.dataSide := by
  simp [adcIdxField]

@[simp] theorem dataSide_cpIdxField (get : DataAddr → Nibble) (k : IndexReg) (imm : Nibble) (s : State) :
    (cpIdxField get k imm s).dataSide = s.dataSide := by
  simp [cpIdxField]

@[simp] theorem dataSide_popIdxField (put : DataAddr → Nibble → DataAddr) (k : IndexReg) (s : State) :
    (popIdxField put k s).dataSide = (memRead (stackAddr s.sp) s.dataSide).2 := by
  simp [popIdxField]

@[simp] theorem dataSide_jumpIf (c : Bool) (dest : Octet) (s : State) : (jumpIf c dest s).dataSide = s.dataSide := by
  cases c <;> rfl

@[simp] theorem raised_enterStopped (s : State) (i : SlotId) :
    (enterStopped s).dataSide.raised i = s.dataSide.raised i := rfl

@[simp] theorem raised_storePairAtX (l : Octet) (s : State) (i : SlotId) :
    (storePairAtX l s).dataSide.raised i = s.dataSide.raised i := by
  simp [storePairAtX]

@[simp] theorem raised_callTo (target : CodeAddr) (s : State) (i : SlotId) :
    (callTo target s).dataSide.raised i = s.dataSide.raised i := by
  obtain ⟨factor, latch⟩ := pushPC_slot_flags (s.pc + 1) s i
  exact Prod.ext factor latch

/-! ### Every instruction clears what it reads -/

/-- After an instruction the factor nibbles and the latches are those that the reads of its rule leave. -/
theorem exec_raised (j : Instr) (s t : State) (i : SlotId) (h : exec j s = .next t) :
    t.raised i = (readAll (readAddrs j s) s.dataSide).raised i := by
  rw [← raised_dataSide t]
  cases j
  all_goals
    obtain rfl := Host.Outcome.next.inj h
    simp [readAddrs, isPop, isReturn, sourceOperands, State.idx]

/-- Settles O42: one access as the rule says, and `exec_raised` for every instruction; the listed ones read the register. -/
theorem factorRegistersReadAndClear : Obligations.FactorRegistersReadAndClear := by
  intro s i n q io
  have cleared (j : Instr) (t : State) (h : exec j s = .next t) :
      (t.slots.get i).triggered = (s.slots.get i).triggered ∧
        (t.slots.get i).factor = if factorAddr i ∈ readAddrs j s then 0 else (s.slots.get i).factor := by
    have after := (exec_raised j s t i h).trans (raised_readAll (readAddrs j s) s.dataSide i io)
    exact ⟨congrArg Prod.snd after, congrArg Prod.fst after⟩
  have clears (j : Instr) (reads : factorAddr i ∈ readAddrs j s) : ∃ t, exec j s = .next t ∧ (t.slots.get i).factor = 0 := by
    obtain ⟨t, answers, -⟩ := exec_next_run j s
    exact ⟨t, answers, (cleared j t answers).2.trans (if_pos reads)⟩
  have write := memWrite_factor i n s io
  refine ⟨by rw [memRead_factor i s io], by rw [memRead_factor i s io], memRead_factor_again i s io, write,
    by rw [write]; rfl, cleared, fun atX j listed => clears j ?_, fun atY j listed => clears j ?_⟩
  · revert j
    simp [readAddrs, isPop, isReturn, sourceOperands, atX]
  · revert j
    simp [readAddrs, isPop, isReturn, sourceOperands, atY]

end Sys2Proof.Machine
end

section
/-! Settles the round trip of the encoding, the words of the branches and of the system instructions that it rests on, and the
fourteen words with two descriptors (spec/30_encoding.md R62, R66, R67). -/

namespace Sys2Proof

/-! ### The words of `PSET` and of the system instructions (R66) -/

theorem decode_pset : ∀ p : BankPage, decode (0b1110010#7 ++ p) = .ok (.pset p) := by decide

theorem decode_nop5 : decode 0xFFB = .ok .nop5 := rfl
theorem decode_nop7 : decode 0xFFF = .ok .nop7 := rfl
theorem decode_halt : decode 0xFF8 = .ok .halt := rfl
theorem decode_slp : decode 0xFF9 = .ok .slp := rfl

/-! ### The round trip -/

/-- A word that decodes to an instruction is the instruction's own word, so encoding the instruction and decoding again goes
through that same word. -/
theorem decode_encode_of_decode {w : InstrWord} {i : Instr} (h : decode w = .ok i) : decode (encode i) = .ok i := by
  rw [encode_of_decode w i h, h]

theorem wellFormed_ldpxRQ_iff (r q : Reg) : (Instr.ldpxRQ r q).wellFormed = true ↔ ¬ (r = .a ∧ q = .a) := by
  simp [Instr.wellFormed, imp_iff_not_or]

theorem wellFormed_ldpyRQ_iff (r q : Reg) : (Instr.ldpyRQ r q).wellFormed = true ↔ ¬ (r = .a ∧ q = .a) := by
  simp [Instr.wellFormed, imp_iff_not_or]

theorem wellFormed_xorRI_iff (r : Reg) (imm : Nibble) : (Instr.xorRI r imm).wellFormed = true ↔ ¬ imm = 0xF := by
  simp [Instr.wellFormed]

/-- Each of the 109 rows, with every operand but those of the shadowed forms, is what some word decodes to. -/
theorem exists_decode_of_wellFormed (i : Instr) (h : i.wellFormed = true) : ∃ w, decode w = .ok i := by
  cases i with
  | pset p => exact ⟨_, decode_pset p⟩
  | jp dest => exact ⟨_, decode_jp dest⟩
  | jpC dest => exact ⟨_, decode_jpC dest⟩
  | jpNC dest => exact ⟨_, decode_jpNC dest⟩
  | jpZ dest => exact ⟨_, decode_jpZ dest⟩
  | jpNZ dest => exact ⟨_, decode_jpNZ dest⟩
  | jpba => exact ⟨_, decode_jpba⟩
  | call dest => exact ⟨_, decode_call dest⟩
  | calz dest => exact ⟨_, decode_calz dest⟩
  | ret => exact ⟨_, decode_ret⟩
  | rets => exact ⟨_, decode_rets⟩
  | retd l => exact ⟨_, decode_retd l⟩
  | nop5 => exact ⟨_, decode_nop5⟩
  | nop7 => exact ⟨_, decode_nop7⟩
  | halt => exact ⟨_, decode_halt⟩
  | slp => exact ⟨_, decode_slp⟩
  | incX => exact ⟨_, decode_incX⟩
  | incY => exact ⟨_, decode_incY⟩
  | ldXi v => exact ⟨_, decode_ldXi v⟩
  | ldYi v => exact ⟨_, decode_ldYi v⟩
  | ldXPr r => exact ⟨_, decode_ldXPr r⟩
  | ldXHr r => exact ⟨_, decode_ldXHr r⟩
  | ldXLr r => exact ⟨_, decode_ldXLr r⟩
  | ldYPr r => exact ⟨_, decode_ldYPr r⟩
  | ldYHr r => exact ⟨_, decode_ldYHr r⟩
  | ldYLr r => exact ⟨_, decode_ldYLr r⟩
  | ldrXP r => exact ⟨_, decode_ldrXP r⟩
  | ldrXH r => exact ⟨_, decode_ldrXH r⟩
  | ldrXL r => exact ⟨_, decode_ldrXL r⟩
  | ldrYP r => exact ⟨_, decode_ldrYP r⟩
  | ldrYH r => exact ⟨_, decode_ldrYH r⟩
  | ldrYL r => exact ⟨_, decode_ldrYL r⟩
  | adcXH imm => exact ⟨_, decode_adcXH imm⟩
  | adcXL imm => exact ⟨_, decode_adcXL imm⟩
  | adcYH imm => exact ⟨_, decode_adcYH imm⟩
  | adcYL imm => exact ⟨_, decode_adcYL imm⟩
  | cpXH imm => exact ⟨_, decode_cpXH imm⟩
  | cpXL imm => exact ⟨_, decode_cpXL imm⟩
  | cpYH imm => exact ⟨_, decode_cpYH imm⟩
  | cpYL imm => exact ⟨_, decode_cpYL imm⟩
  | ldRI r imm => exact ⟨_, decode_ldRI r imm⟩
  | ldRQ r q => exact ⟨_, decode_ldRQ r q⟩
  | ldAMn n => exact ⟨_, decode_ldAMn n⟩
  | ldBMn n => exact ⟨_, decode_ldBMn n⟩
  | ldMnA n => exact ⟨_, decode_ldMnA n⟩
  | ldMnB n => exact ⟨_, decode_ldMnB n⟩
  | ldpxMX imm => exact ⟨_, decode_ldpxMX imm⟩
  | ldpxRQ r q => exact ⟨_, (decode_ldpxRQ r q).trans (by rw [if_neg ((wellFormed_ldpxRQ_iff r q).mp h)])⟩
  | ldpyMY imm => exact ⟨_, decode_ldpyMY imm⟩
  | ldpyRQ r q => exact ⟨_, (decode_ldpyRQ r q).trans (by rw [if_neg ((wellFormed_ldpyRQ_iff r q).mp h)])⟩
  | lbpx l => exact ⟨_, decode_lbpx l⟩
  | scf => exact ⟨_, decode_scf⟩
  | szf => exact ⟨_, decode_szf⟩
  | sdf => exact ⟨_, decode_sdf⟩
  | ei => exact ⟨_, decode_ei⟩
  | setF imm => exact ⟨_, decode_setF imm h⟩
  | rcf => exact ⟨_, decode_rcf⟩
  | rzf => exact ⟨_, decode_rzf⟩
  | rdf => exact ⟨_, decode_rdf⟩
  | di => exact ⟨_, decode_di⟩
  | rstF imm => exact ⟨_, decode_rstF imm h⟩
  | incSP => exact ⟨_, decode_incSP⟩
  | decSP => exact ⟨_, decode_decSP⟩
  | pushR r => exact ⟨_, decode_pushR r⟩
  | pushXP => exact ⟨_, decode_pushXP⟩
  | pushXH => exact ⟨_, decode_pushXH⟩
  | pushXL => exact ⟨_, decode_pushXL⟩
  | pushYP => exact ⟨_, decode_pushYP⟩
  | pushYH => exact ⟨_, decode_pushYH⟩
  | pushYL => exact ⟨_, decode_pushYL⟩
  | pushF => exact ⟨_, decode_pushF⟩
  | popR r => exact ⟨_, decode_popR r⟩
  | popXP => exact ⟨_, decode_popXP⟩
  | popXH => exact ⟨_, decode_popXH⟩
  | popXL => exact ⟨_, decode_popXL⟩
  | popYP => exact ⟨_, decode_popYP⟩
  | popYH => exact ⟨_, decode_popYH⟩
  | popYL => exact ⟨_, decode_popYL⟩
  | popF => exact ⟨_, decode_popF⟩
  | ldSPHr r => exact ⟨_, decode_ldSPHr r⟩
  | ldSPLr r => exact ⟨_, decode_ldSPLr r⟩
  | ldrSPH r => exact ⟨_, decode_ldrSPH r⟩
  | ldrSPL r => exact ⟨_, decode_ldrSPL r⟩
  | addRI r imm => exact ⟨_, decode_addRI r imm⟩
  | addRQ r q => exact ⟨_, decode_addRQ r q⟩
  | adcRI r imm => exact ⟨_, decode_adcRI r imm⟩
  | adcRQ r q => exact ⟨_, decode_adcRQ r q⟩
  | subRQ r q => exact ⟨_, decode_subRQ r q⟩
  | sbcRI r imm => exact ⟨_, decode_sbcRI r imm⟩
  | sbcRQ r q => exact ⟨_, decode_sbcRQ r q⟩
  | andRI r imm => exact ⟨_, decode_andRI r imm⟩
  | andRQ r q => exact ⟨_, decode_andRQ r q⟩
  | orRI r imm => exact ⟨_, decode_orRI r imm⟩
  | orRQ r q => exact ⟨_, decode_orRQ r q⟩
  | notR r => exact ⟨_, decode_xorRI r 0xF⟩
  | xorRI r imm => exact ⟨_, (decode_xorRI r imm).trans (by rw [if_neg ((wellFormed_xorRI_iff r imm).mp h)])⟩
  | xorRQ r q => exact ⟨_, decode_xorRQ r q⟩
  | cpRI r imm => exact ⟨_, decode_cpRI r imm⟩
  | cpRQ r q => exact ⟨_, decode_cpRQ r q⟩
  | fanRI r imm => exact ⟨_, decode_fanRI r imm⟩
  | fanRQ r q => exact ⟨_, decode_fanRQ r q⟩
  | rlc d r => exact ⟨_, decode_rlc d r⟩
  | rrc r => exact ⟨_, decode_rrc r⟩
  | incMn n => exact ⟨_, decode_incMn n⟩
  | decMn n => exact ⟨_, decode_decMn n⟩
  | acpx r => exact ⟨_, decode_acpx r⟩
  | acpy r => exact ⟨_, decode_acpy r⟩
  | scpx r => exact ⟨_, decode_scpx r⟩
  | scpy r => exact ⟨_, decode_scpy r⟩

/-- Settles O56: every well-formed instruction is what some word decodes to, and that word is its encoding. -/
theorem decodeOfEncode : Obligations.DecodeOfEncode := by
  intro i h
  obtain ⟨w, decoded⟩ := exists_decode_of_wellFormed i h
  exact decode_encode_of_decode decoded

/-- Settles O59: each word is one of the words of its row. -/
theorem writtenOutWordsDecode : Obligations.WrittenOutWordsDecode :=
  ⟨decode_pset 2, decode_call 0x10, decode_ldRI .a 3, decode_adcXL 3, decode_setF 0xC rfl, decode_pushR .a,
    decode_adcRQ .b .mx, decode_halt⟩

end Sys2Proof

namespace Sys2Proof.Machine

/-! ### The fourteen words with two descriptors (R67) -/

/-- `XOR r,0xF` complements. -/
theorem xor_allOnes_nibble : ∀ v : Nibble, v ^^^ 0xF = ~~~v := by decide

theorem exec_notR_eq_exec_xorRI (r : Reg) (s : State) : exec (.notR r) s = exec (.xorRI r 0xF) s := by
  simp only [exec_notR, exec_xorRI, logicImm, xor_allOnes_nibble, regValue]

/-- Copying `A` to itself changes nothing, so what is left of `LDPX A,A` and `LDPY A,A` is the increment. -/
theorem exec_incX_eq_exec_ldpxRQ (s : State) : exec .incX s = exec (.ldpxRQ .a .a) s := rfl
theorem exec_incY_eq_exec_ldpyRQ (s : State) : exec .incY s = exec (.ldpyRQ .a .a) s := rfl

/-- Settles O58: `XOR r,0xF` complements, `LDPX A,A` copies nothing, and a mask with one bit set or cleared writes that flag. -/
theorem overlappingDescriptorsAgree : Obligations.OverlappingDescriptorsAgree := by
  intro s r p hp
  simp only [List.mem_cons, List.not_mem_nil, or_false] at hp
  rcases hp with rfl | rfl | rfl | rfl | rfl | rfl | rfl | rfl | rfl | rfl | rfl
  · refine ⟨exec_notR_eq_exec_xorRI r s, rfl, by cases r <;> rfl, decodeOfEncode _ rfl⟩
  all_goals exact ⟨rfl, rfl, rfl, decodeOfEncode _ rfl⟩

end Sys2Proof.Machine
end

section
/-! Settles that every data access of every instruction has the effects of its address (spec/20_memory.md R42 to R44,
spec/40_execution_cycle.md R91, R92), and the frames of the cells and of the device registers that follow. -/

namespace Sys2Proof.Machine

/-! ### Which access an address gets depends on the parameters alone (R40, R43, R44) -/

theorem backed_of_params {s t : State} (params : t.params = s.params) (k : DataAddr) : t.backed k = s.backed k := by
  simp [State.backed, State.inRam, State.inDisplay, State.inIo, params]

theorem ioAccess_of_params {s t : State} (params : t.params = s.params) (k : DataAddr) : t.ioAccess k = s.ioAccess k := by
  simp [State.ioAccess, State.inRam, State.inDisplay, State.inIo, params]

theorem displayAccess_of_params {s t : State} (params : t.params = s.params) (k : DataAddr) :
    t.displayAccess k = s.displayAccess k := by
  simp [State.displayAccess, State.inRam, State.inDisplay, params]

/-! ### Lists of accesses, on the whole state -/

theorem emit_nil (s : State) : s.emit [] = s := by
  simp [State.emit, State.setOutputs]

theorem dataSide_readAll (l : List DataAddr) (s : State) : (readAll l s).dataSide = readAll l s.dataSide := by
  induction l generalizing s with
  | nil => rfl
  | cons k l ih => exact (ih _).trans (by rw [dataSide_memRead]; rfl)

theorem dataSide_writeAll (l : List (DataAddr × Nibble)) (s : State) :
    (writeAll l s).dataSide = writeAll l s.dataSide := by
  induction l generalizing s with
  | nil => rfl
  | cons p l ih => exact (ih _).trans (by rw [dataSide_memWrite]; rfl)

/-- What every read keeps, a list of reads keeps. -/
theorem readAll_induction (P : State → Prop) (l : List DataAddr) (s : State)
    (read : ∀ k ∈ l, ∀ u, P u → P (memRead k u).2) (start : P s) : P (readAll l s) := by
  induction l generalizing s with
  | nil => exact start
  | cons k l ih =>
    exact ih _ (fun j hj => read j (List.mem_cons_of_mem _ hj)) (read k List.mem_cons_self s start)

/-- What every write keeps, a list of writes keeps. -/
theorem writeAll_induction (P : State → Prop) (l : List (DataAddr × Nibble)) (s : State)
    (write : ∀ p ∈ l, ∀ u, P u → P (memWrite p.1 p.2 u)) (start : P s) : P (writeAll l s) := by
  induction l generalizing s with
  | nil => exact start
  | cons p l ih =>
    exact ih _ (fun q hq => write q (List.mem_cons_of_mem _ hq)) (write p List.mem_cons_self s start)

/-- What every single access keeps, the accesses of an instruction keep: the reads at `reads`, then the writes of `ws`. -/
theorem accesses_induction (P : State → Prop) (reads : List DataAddr) (ws : List (DataAddr × Nibble)) (s : State)
    (read : ∀ k ∈ reads, ∀ u, P u → P (memRead k u).2) (write : ∀ k ∈ ws.map Prod.fst, ∀ n u, P u → P (memWrite k n u))
    (start : P s) : P (writeAll ws (readAll reads s)) :=
  writeAll_induction P ws _ (fun p hp u hu => write p.1 (List.mem_map_of_mem hp) p.2 u hu)
    (readAll_induction P reads s read start)

/-! ### What an instruction accesses -/

/-- The data side of `t` is that of `s` after reads at `reads` and then writes at `stores`, of whatever values, and after the
events `es`, which no access has emitted. -/
def Accesses (reads stores : List DataAddr) (es : List Event) (s t : State) : Prop :=
  ∃ ws : List (DataAddr × Nibble), ws.map Prod.fst = stores ∧
    t.dataSide = ((writeAll ws (readAll reads s)).emit es).dataSide

theorem Accesses.congr {reads stores : List DataAddr} {es : List Event} {s t u : State}
    (h : Accesses reads stores es s t) (side : u.dataSide = t.dataSide) : Accesses reads stores es s u := by
  obtain ⟨ws, addresses, writes⟩ := h
  exact ⟨ws, addresses, side.trans writes⟩

theorem accesses_of_writes {reads stores : List DataAddr} {s t : State} (ws : List (DataAddr × Nibble))
    (addresses : ws.map Prod.fst = stores) (writes : t.dataSide = writeAll ws (readAll reads s.dataSide)) :
    Accesses reads stores [] s t :=
  ⟨ws, addresses, by rw [emit_nil, dataSide_writeAll, dataSide_readAll, writes]⟩

theorem accesses_readsOnly {reads : List DataAddr} {s t : State} (h : t.dataSide = readAll reads s.dataSide) :
    Accesses reads [] [] s t :=
  accesses_of_writes [] rfl h

theorem accesses_memWrite {reads : List DataAddr} {s u : State} (k : DataAddr) (n : Nibble)
    (read : u.dataSide = readAll reads s.dataSide) : Accesses reads [k] [] s (memWrite k n u) :=
  accesses_of_writes [(k, n)] rfl (by rw [dataSide_memWrite, read]; rfl)

/-- An operand is written where it is named before the instruction, as the reads before move no index register. -/
theorem accesses_writeReg {reads : List DataAddr} {s u : State} (r : Reg) (n : Nibble)
    (read : u.dataSide = readAll reads s.dataSide) (named : regAddr r u = regAddr r s) :
    Accesses reads (regAddr r s) [] s (writeReg r n u) :=
  accesses_of_writes ((regAddr r s).map (fun k => (k, n))) (by simp [Function.comp_def])
    (by rw [dataSide_writeReg, named, read])

/-! The shapes of the instructions. What follows the accesses in each of them writes registers and flags alone. -/

theorem dataSide_readOperand (r : Reg) (s : State) :
    (readReg r s).2.dataSide = readAll ([r].flatMap (fun r => regAddr r s)) s.dataSide := by
  simp

theorem dataSide_readOperands (r q : Reg) (s : State) :
    (readReg q (readReg r s).2).2.dataSide = readAll ([r, q].flatMap (fun r => regAddr r s)) s.dataSide := by
  simp

theorem accesses_arithImm (op : Adder) (cin : Bool) (r : Reg) (imm : Nibble) (s : State) :
    Accesses ([r].flatMap (fun r => regAddr r s)) (regAddr r s) [] s (arithImm op cin r imm s) :=
  (accesses_writeReg r _ (dataSide_readOperand r s) (regAddr_readReg r r s)).congr rfl

theorem accesses_arithReg (op : Adder) (cin : Bool) (r q : Reg) (s : State) :
    Accesses ([r, q].flatMap (fun r => regAddr r s)) (regAddr r s) [] s (arithReg op cin r q s) :=
  (accesses_writeReg r _ (dataSide_readOperands r q s) (by simp)).congr rfl

theorem accesses_logicImm (op : Nibble → Nibble → Nibble) (r : Reg) (imm : Nibble) (s : State) :
    Accesses ([r].flatMap (fun r => regAddr r s)) (regAddr r s) [] s (logicImm op r imm s) :=
  (accesses_writeReg r _ (dataSide_readOperand r s) (regAddr_readReg r r s)).congr rfl

theorem accesses_logicReg (op : Nibble → Nibble → Nibble) (r q : Reg) (s : State) :
    Accesses ([r, q].flatMap (fun r => regAddr r s)) (regAddr r s) [] s (logicReg op r q s) :=
  (accesses_writeReg r _ (dataSide_readOperands r q s) (by simp)).congr rfl

theorem accesses_rotateReg (op : Nibble → Bool → Nibble × Bool) (r : Reg) (s : State) :
    Accesses ([r].flatMap (fun r => regAddr r s)) (regAddr r s) [] s (rotateReg op r s) :=
  (accesses_writeReg r _ (dataSide_readOperand r s) (regAddr_readReg r r s)).congr rfl

theorem accesses_copyReg (r q : Reg) (s : State) :
    Accesses ([q].flatMap (fun r => regAddr r s)) (regAddr r s) [] s (copyReg r q s) :=
  accesses_writeReg r _ (dataSide_readOperand q s) (regAddr_readReg r q s)

/-- The cell at an index register is the operand `MX` or `MY`, read first and written last. -/
theorem accesses_arithIndexed (op : Adder) (k : IndexReg) (r : Reg) (s : State) :
    Accesses ([cellOperand k, r].flatMap (fun r => regAddr r s)) (regAddr (cellOperand k) s) [] s
      (arithIndexed op k r s) := by
  cases k with
  | x => exact (accesses_writeReg .mx _ (dataSide_readOperands .mx r s) (by simp)).congr (dataSide_bumpIdx _ .x 1)
  | y => exact (accesses_writeReg .my _ (dataSide_readOperands .my r s) (by simp)).congr (dataSide_bumpIdx _ .y 1)

theorem accesses_loadIdxField (put : DataAddr → Nibble → DataAddr) (k : IndexReg) (r : Reg) (s : State) :
    Accesses ([r].flatMap (fun r => regAddr r s)) [] [] s (loadIdxField put k r s) :=
  accesses_readsOnly (by simp [loadIdxField])

theorem accesses_popIdxField (put : DataAddr → Nibble → DataAddr) (k : IndexReg) (s : State) :
    Accesses [stackAddr s.sp] [] [] s (popIdxField put k s) :=
  accesses_readsOnly (dataSide_popIdxField put k s)

theorem accesses_pushNibble {reads : List DataAddr} {s u : State} (n : Nibble) (sp : u.sp = s.sp)
    (read : u.dataSide = readAll reads s.dataSide) : Accesses reads [stackAddr (s.sp - 1)] [] s (pushNibble n u) :=
  sp ▸ accesses_memWrite (stackAddr (u.sp - 1)) n read

theorem accesses_countCell (op : Adder) (n : Nibble) (s : State) :
    Accesses [mnAddr n] [mnAddr n] [] s (countCell op n s) :=
  accesses_memWrite (mnAddr n) _ (dataSide_memRead (mnAddr n) s)

theorem accesses_storePairAtX {reads : List DataAddr} {s u : State} (l : Octet) (x : u.x = s.x)
    (read : u.dataSide = readAll reads s.dataSide) :
    Accesses reads [s.x, idxAdd s.x 1] [] s (storePairAtX l u) := by
  refine accesses_of_writes [(s.x, l.extractLsb' 0 4), (idxAdd s.x 1, l.extractLsb' 4 4)] rfl ?_
  rw [storePairAtX_eq_setX, dataSide_setX, dataSide_memWrite, dataSide_memWrite, read, x]
  rfl

/-- The frame of a call: the nibbles of the return address, page first, each with its frame cell where there is one (R112). -/
def returnFrame (s : State) : List (Option DataAddr × Nibble) :=
  [(frameAddr s.params.stackWrap s.sp (-1), (s.pc + 1).extractLsb' 8 4),
    (frameAddr s.params.stackWrap s.sp (-2), (s.pc + 1).extractLsb' 4 4),
    (frameAddr s.params.stackWrap s.sp (-3), (s.pc + 1).extractLsb' 0 4)]

theorem accesses_callTo (target : CodeAddr) (s : State) : Accesses [] (pushFrame s) [] s (callTo target s) := by
  refine accesses_of_writes ((returnFrame s).flatMap fun c => c.1.toList.map (fun k => (k, c.2))) ?_ ?_
  · simp only [returnFrame, pushFrame]
    cases frameAddr s.params.stackWrap s.sp (-1) <;> cases frameAddr s.params.stackWrap s.sp (-2) <;>
      cases frameAddr s.params.stackWrap s.sp (-3) <;> rfl
  · simp [returnFrame, callTo, pushPC, writeAll]

/-- The halt indication, the one output of an instruction that is no data access (R122, R123). -/
def haltIndication : Instr → List Event
  | .halt => [.halt]
  | .slp => [.halt]
  | _ => []

/-- Every instruction reads at the addresses its rule reads, then stores to those its rule stores to, and nothing else of it
reaches the data side but the halt indication (R43, R44, R92). -/
theorem exec_accesses (i : Instr) (s t : State) (h : exec i s = .next t) :
    Accesses (readAddrs i s) (storedAddrs i s) (haltIndication i) s t := by
  cases i
  all_goals obtain rfl := Host.Outcome.next.inj h
  case addRI | adcRI | sbcRI => exact accesses_arithImm ..
  case addRQ | adcRQ | subRQ | sbcRQ => exact accesses_arithReg ..
  case andRI | orRI | xorRI => exact accesses_logicImm ..
  case andRQ | orRQ | xorRQ => exact accesses_logicReg ..
  case notR r => exact accesses_writeReg r _ (dataSide_readOperand r s) (regAddr_readReg r r s)
  case rlc | rrc => exact accesses_rotateReg ..
  case acpx | scpx => exact accesses_arithIndexed _ .x ..
  case acpy | scpy => exact accesses_arithIndexed _ .y ..
  case incMn | decMn => exact accesses_countCell ..
  case cpRI r _ | fanRI r _ => exact accesses_readsOnly (dataSide_readOperand r s)
  case cpRQ r q | fanRQ r q => exact accesses_readsOnly (dataSide_readOperands r q s)
  case ldRQ | ldpxRQ | ldpyRQ => exact accesses_copyReg ..
  case ldRI r _ | ldrSPH r | ldrSPL r | ldrXP r | ldrXH r | ldrXL r | ldrYP r | ldrYH r | ldrYL r =>
    exact accesses_writeReg r _ rfl rfl
  case ldpxMX => exact accesses_writeReg .mx _ rfl rfl
  case ldpyMY => exact accesses_writeReg .my _ rfl rfl
  case ldMnA | ldMnB => exact accesses_memWrite _ _ rfl
  case ldAMn n | ldBMn n => exact accesses_readsOnly (dataSide_memRead (mnAddr n) s)
  case ldXPr | ldXHr | ldXLr | ldYPr | ldYHr | ldYLr => exact accesses_loadIdxField ..
  case ldSPHr r | ldSPLr r => exact accesses_readsOnly (dataSide_readOperand r s)
  case pushR r => exact accesses_pushNibble _ (by simp) (dataSide_readOperand r s)
  case pushXP | pushXH | pushXL | pushYP | pushYH | pushYL | pushF => exact accesses_pushNibble _ rfl rfl
  case popR r => exact accesses_writeReg r _ (dataSide_readTop s) (regAddr_readTop r s)
  case popXP | popXH | popXL | popYP | popYH | popYL => exact accesses_popIdxField ..
  case popF => exact accesses_readsOnly (dataSide_readTop s)
  case call | calz => exact accesses_callTo ..
  case ret | rets => exact accesses_readsOnly (dataSide_returnFromCall _ s)
  case retd l => exact accesses_storePairAtX l (by simp) (dataSide_returnFromCall 0 s)
  case lbpx l => exact accesses_storePairAtX l rfl rfl
  case halt | slp => exact ⟨[], rfl, rfl⟩
  case jp | jpC | jpNC | jpZ | jpNZ => exact accesses_readsOnly (dataSide_jumpIf ..)
  case adcXH | adcXL | adcYH | adcYL => exact accesses_readsOnly (dataSide_adcIdxField ..)
  all_goals exact accesses_readsOnly rfl

/-! ### The cells (R42, R44) -/

/-- Accesses change neither the parameters nor a cell they do not store to, nor anything where there is no cell. -/
theorem Accesses.cell_eq {reads stores : List DataAddr} {es : List Event} {s t : State} (h : Accesses reads stores es s t)
    (k : DataAddr) (outside : k ∉ stores ∨ s.backed k = false) : t.params = s.params ∧ t.cell k = s.cell k := by
  obtain ⟨ws, addresses, side⟩ := h
  have kept : (writeAll ws (readAll reads s)).params = s.params ∧
      (writeAll ws (readAll reads s)).cell k = s.cell k := by
    refine accesses_induction (fun u => u.params = s.params ∧ u.cell k = s.cell k) reads ws _
      (fun _ _ u hu => by simpa using hu) (fun a ha n u ⟨params, cell⟩ => ⟨by simpa using params, ?_⟩) ⟨rfl, rfl⟩
    by_cases same : k = a
    · subst same
      have hole : u.backed k = false := by
        have := outside.resolve_left (fun absent => absent (addresses ▸ ha))
        rwa [backed_of_params params]
      rw [memWrite_hole k n u hole, cell]
    · rw [memWrite_cell_other a k n u same, cell]
  obtain ⟨params, cell⟩ := kept
  exact ⟨(congrArg State.params side).trans params, (congrArg (State.cell · k) side).trans cell⟩

/-- A read that is no I/O access sees the parameters and the cell alone (R43). -/
theorem memRead_value_congr (k : DataAddr) (s t : State) (params : t.params = s.params) (cell : t.cell k = s.cell k)
    (plain : s.ioAccess k = false) : (memRead k t).1 = (memRead k s).1 := by
  rw [memRead_value, memRead_value, ioAccess_of_params params, plain, backed_of_params params, cell]
  rfl

/-- Settles O35: what the accesses of an instruction leave alone. -/
theorem instructionsLeaveOtherCellsAlone : Obligations.InstructionsLeaveOtherCellsAlone := by
  intro i s t h k outside
  obtain ⟨params, cell⟩ := (exec_accesses i s t h).cell_eq k outside
  exact ⟨cell, memRead_value_congr k s t params cell⟩

/-! ### The device registers and the outputs (R47, R48, R91) -/

theorem SameDevices.trans {s t u : State} (h : SameDevices s t) (h' : SameDevices t u) : SameDevices s u := by
  obtain ⟨slots, reload, count, enabled, stamp⟩ := h
  obtain ⟨slots', reload', count', enabled', stamp'⟩ := h'
  exact ⟨slots'.trans slots, reload'.trans reload, count'.trans count, enabled'.trans enabled, stamp'.trans stamp⟩

/-- Accesses that are no I/O accesses leave the device registers alone. -/
theorem Accesses.sameDevices {reads stores : List DataAddr} {es : List Event} {s t : State}
    (h : Accesses reads stores es s t) (plain : ∀ k ∈ reads ++ stores, s.ioAccess k = false) : SameDevices s t := by
  obtain ⟨ws, addresses, side⟩ := h
  rw [List.forall_mem_append] at plain
  obtain ⟨plainReads, plainStores⟩ := plain
  obtain ⟨slots, reload, count, enabled, stamp⟩ : SameDevices s (writeAll ws (readAll reads s)) :=
    (accesses_induction (fun u => SameDevices s u ∧ ∀ k, u.ioAccess k = s.ioAccess k) reads ws s
      (fun k hk u ⟨same, access⟩ => by
        rw [memRead_state_plain k u ((access k).trans (plainReads k hk))]
        exact ⟨same, access⟩)
      (fun k hk n u ⟨same, access⟩ =>
        ⟨same.trans (memWrite_devices k n u ((access k).trans (plainStores k (addresses ▸ hk)))), by simpa using access⟩)
      ⟨⟨rfl, rfl, rfl, rfl, rfl⟩, fun _ => rfl⟩).1
  exact ⟨(congrArg State.slots side).trans slots, (congrArg State.ptReload side).trans reload,
    (congrArg State.ptData side).trans count, (congrArg State.ptEnabled side).trans enabled,
    (congrArg State.ptStamp side).trans stamp⟩

/-- Stores that are neither I/O nor display accesses emit nothing, and no read does. -/
theorem Accesses.outputs_eq {reads stores : List DataAddr} {es : List Event} {s t : State}
    (h : Accesses reads stores es s t) (plain : ∀ k ∈ stores, s.ioAccess k = false ∧ s.displayAccess k = false) :
    t.outputs = s.outputs ++ es := by
  obtain ⟨ws, addresses, side⟩ := h
  have silent : (writeAll ws (readAll reads s)).outputs = s.outputs :=
    (accesses_induction (fun u => u.outputs = s.outputs ∧ u.params = s.params) reads ws s
      (fun k _ u hu => by simpa using hu)
      (fun k hk n u ⟨outputs, params⟩ => by
        obtain ⟨noIo, noDisplay⟩ := plain k (addresses ▸ hk)
        exact ⟨(memWrite_outputs k n u ((ioAccess_of_params params k).trans noIo)
          ((displayAccess_of_params params k).trans noDisplay)).trans outputs, by simpa using params⟩)
      ⟨rfl, rfl⟩).1
  rw [(same_of_dataSide _ t side).2.2, emit_outputs, silent]

theorem haltIndication_eq_nil (i : Instr) (halt : i ≠ .halt) (slp : i ≠ .slp) : haltIndication i = [] := by
  cases i
  case halt => exact absurd rfl halt
  case slp => exact absurd rfl slp
  all_goals rfl

/-- Settles O36: accesses that are plain touch no device; stores that are also no display stores emit nothing. -/
theorem instructionsTouchDevicesOnlyThroughAccesses : Obligations.InstructionsTouchDevicesOnlyThroughAccesses := by
  intro i s t h plain
  have accesses := exec_accesses i s t h
  refine ⟨accesses.sameDevices plain, fun noDisplay halt slp => ?_⟩
  have outputs := accesses.outputs_eq
    (fun k hk => ⟨plain k (List.mem_append_right _ hk), noDisplay k hk⟩)
  rw [outputs, haltIndication_eq_nil i halt slp, List.append_nil]

/-! ### The stored values (R92) -/

/-- No rule stores twice to one cell, so each stored cell ends with the value stored to it. -/
theorem pushFrame_nodup (s : State) : (pushFrame s).Nodup := by
  have apart (j k : Int) (hj : -3 ≤ j ∧ j ≤ 2) (hk : -3 ≤ k ∧ k ≤ 2) (h : j ≠ k) (a b : DataAddr) :=
    frameAddr_ne s.params.stackWrap s.sp j k hj.1 hj.2 hk.1 hk.2 h a b
  have n12 := apart (-1) (-2) (by omega) (by omega) (by omega)
  have n13 := apart (-1) (-3) (by omega) (by omega) (by omega)
  have n23 := apart (-2) (-3) (by omega) (by omega) (by omega)
  simp only [pushFrame]
  cases h1 : frameAddr s.params.stackWrap s.sp (-1) <;> cases h2 : frameAddr s.params.stackWrap s.sp (-2) <;>
    cases h3 : frameAddr s.params.stackWrap s.sp (-3) <;> simp_all

theorem regAddr_nodup (r : Reg) (s : State) : (regAddr r s).Nodup := by
  cases r <;> simp [regAddr]

theorem storedAddrs_nodup (i : Instr) (s : State) : (storedAddrs i s).Nodup := by
  cases i
  case call | calz => exact pushFrame_nodup s
  case retd | lbpx => simpa [storedAddrs, isPush, isCall] using (idxAdd_one_ne s.x).symm
  all_goals simp [storedAddrs, isPush, isCall, destOperand, regAddr_nodup]

/-- The accesses of an instruction, with the values the stored cells end with, leave the data side it leaves. -/
theorem dataSide_of_exec (i : Instr) (s t : State) (hw : Memory.wf s.mem = true) (h : exec i s = .next t) :
    t.dataSide = ((accessed i s t).emit (haltIndication i)).dataSide := by
  obtain ⟨ws, addresses, side⟩ := exec_accesses i s t h
  obtain ⟨mem, -⟩ := same_of_dataSide _ t side
  have cell : t.cell = (writeAll ws (readAll (readAddrs i s) s)).cell := by
    funext k
    simp only [State.cell, mem, emit_keeps]
  have wf : Memory.wf (readAll (readAddrs i s) s).mem = true :=
    readAll_induction (fun u => Memory.wf u.mem = true) _ _ (fun _ _ u hu => by simpa using hu) hw
  have final := writeAll_final ws (readAll (readAddrs i s) s) wf (addresses ▸ storedAddrs_nodup i s)
  have accesses : accessed i s t = writeAll ws (readAll (readAddrs i s) s) := by
    rw [final, addresses, accessed, cell]
    rfl
  rw [side, accesses]

/-- Settles O60: the data side of an instruction is that of its accesses, and the halt indication is an event. -/
theorem accessesHaveTheirAddressEffects : Obligations.AccessesHaveTheirAddressEffects := by
  intro i s t hw h
  have side := dataSide_of_exec i s t hw h
  obtain ⟨mem, devices, outputs⟩ := same_of_dataSide _ t side
  refine ⟨mem.trans (by simp), devices, fun halt slp => ?_⟩
  rw [outputs, haltIndication_eq_nil i halt slp, emit_nil]

end Sys2Proof.Machine
end

section
/-! Settles what the instructions leave alone among the registers, the flags and the state of the step (spec/40_execution_cycle.md
R91), `PSET` and the system instructions (spec/41_branch.md R100, spec/42_system.md R120 to R123). -/

namespace Sys2Proof.Machine

/-! ### `PSET` and the system instructions -/

theorem exec_pset (p : BankPage) (s : State) : exec (.pset p) s = .next (s.setNp p) := rfl
theorem exec_nop5 (s : State) : exec .nop5 s = .next s := rfl
theorem exec_nop7 (s : State) : exec .nop7 s = .next s := rfl
theorem exec_halt (s : State) : exec .halt s = .next (enterStopped s) := rfl
theorem exec_slp (s : State) : exec .slp s = .next (enterStopped s) := rfl

theorem enterStopped_eq (s : State) : enterStopped s = { s with run := .stopped, outputs := s.outputs ++ [.halt] } := rfl

/-- Settles O19: `PSET` writes `NP` alone, whose bank and page are digits of it. -/
theorem psetWritesTheNewPagePointer : Obligations.PsetWritesTheNewPagePointer := fun p s =>
  ⟨decode_pset p, _, exec_pset p s, rfl, npBank_toNat p, npPage_toNat p, rfl, rfl⟩

/-- Settles O26: the two no-operations are the identity, the two others are `enterStopped`. -/
theorem nopsDoNothingHaltsStop : Obligations.NopsDoNothingHaltsStop := by
  refine ⟨⟨decode_nop5, decode_nop7, decode_halt, decode_slp⟩, fun s => ⟨exec_nop5 s, exec_nop7 s, fun i hi => ?_⟩⟩
  simp only [List.mem_cons, List.not_mem_nil, or_false] at hi
  obtain rfl | rfl := hi
  · rw [exec_halt, enterStopped_eq]
  · rw [exec_slp, enterStopped_eq]

/-! ### The registers and the flags -/

/-- From `s` to `t` nothing of the registers changes but the operand `dest`, `X`, `Y` and `SP` where they are said to be written,
and the bits `flags` of `F`. -/
def RegistersKept (dest : Option Reg) (writtenX writtenY writtenSP : Bool) (flags : Nibble) (s t : State) : Prop :=
  (dest ≠ some .a → t.a = s.a) ∧ (dest ≠ some .b → t.b = s.b) ∧
    (writtenX = false → t.x = s.x) ∧ (writtenY = false → t.y = s.y) ∧ (writtenSP = false → t.sp = s.sp) ∧
    t.f &&& ~~~flags = s.f &&& ~~~flags

/-! What the flag writes of each kind leave of `F`, with the kept bits as one mask. -/

@[simp] theorem setC_f_kept (s : State) (v : Bool) : (s.setC v).f &&& 0b1110#4 = s.f &&& 0b1110#4 := putFlag_frame s.f bitC v
@[simp] theorem setZ_f_kept (s : State) (v : Bool) : (s.setZ v).f &&& 0b1101#4 = s.f &&& 0b1101#4 := putFlag_frame s.f bitZ v
@[simp] theorem setD_f_kept (s : State) (v : Bool) : (s.setD v).f &&& 0b1011#4 = s.f &&& 0b1011#4 := putFlag_frame s.f bitD v
@[simp] theorem setI_f_kept (s : State) (v : Bool) : (s.setI v).f &&& 0b0111#4 = s.f &&& 0b0111#4 := putFlag_frame s.f bitI v

@[simp] theorem setArithFlags_f_kept (s : State) (r : Nibble × Bool) :
    (s.setArithFlags r).f &&& 0b1100#4 = s.f &&& 0b1100#4 := setCZ_frame s r.2 (r.1 == 0)

@[simp] theorem setCompareFlags_f_kept (s : State) (a b : Nibble) :
    (s.setCompareFlags a b).f &&& 0b1100#4 = s.f &&& 0b1100#4 := setCZ_frame s _ _

@[simp] theorem setLogicFlag_f_kept (s : State) (v : Nibble) :
    (s.setLogicFlag v).f &&& 0b1101#4 = s.f &&& 0b1101#4 := setZ_f_kept s _

/-! One lemma per shape of instruction. An operand is `A`, `B` or a cell, which is no register. -/

theorem registersKept_writeReg (r : Reg) (n : Nibble) (s : State) :
    RegistersKept (some r) false false false 0 s (writeReg r n s) := by
  cases r <;> simp [RegistersKept]

theorem registersKept_arithImm (op : Adder) (cin : Bool) (r : Reg) (imm : Nibble) (s : State) :
    RegistersKept (some r) false false false 0b0011 s (arithImm op cin r imm s) := by
  cases r <;> simp [RegistersKept, arithImm]

theorem registersKept_arithReg (op : Adder) (cin : Bool) (r q : Reg) (s : State) :
    RegistersKept (some r) false false false 0b0011 s (arithReg op cin r q s) := by
  cases r <;> simp [RegistersKept, arithReg]

theorem registersKept_arithIndexed (op : Adder) (k : IndexReg) (r : Reg) (s : State) :
    RegistersKept (some (cellOperand k)) (k == .x) (k == .y) false 0b0011 s (arithIndexed op k r s) := by
  cases k <;> simp [RegistersKept, arithIndexed, cellOperand, State.bumpIdx, State.setIdx]

theorem registersKept_logicImm (op : Nibble → Nibble → Nibble) (r : Reg) (imm : Nibble) (s : State) :
    RegistersKept (some r) false false false 0b0010 s (logicImm op r imm s) := by
  cases r <;> simp [RegistersKept, logicImm]

theorem registersKept_logicReg (op : Nibble → Nibble → Nibble) (r q : Reg) (s : State) :
    RegistersKept (some r) false false false 0b0010 s (logicReg op r q s) := by
  cases r <;> simp [RegistersKept, logicReg]

theorem registersKept_rotateReg (op : Nibble → Bool → Nibble × Bool) (r : Reg) (s : State) :
    RegistersKept (some r) false false false 0b0001 s (rotateReg op r s) := by
  cases r <;> simp [RegistersKept, rotateReg]

theorem registersKept_notR (r : Reg) (s t : State) (h : exec (.notR r) s = .next t) :
    RegistersKept (some r) false false false 0b0010 s t := by
  obtain rfl := Host.Outcome.next.inj h
  cases r <;> simp [RegistersKept]

theorem registersKept_copyReg (r q : Reg) (s : State) :
    RegistersKept (some r) false false false 0 s (copyReg r q s) := by
  cases r <;> simp [RegistersKept, copyReg]

theorem registersKept_countCell (op : Adder) (n : Nibble) (s : State) :
    RegistersKept none false false false 0b0011 s (countCell op n s) := by
  simp [RegistersKept, countCell]

theorem registersKept_jumpIf (c : Bool) (dest : Octet) (s : State) :
    RegistersKept none false false false 0 s (jumpIf c dest s) := by
  cases c <;> simp [RegistersKept, jumpIf]

theorem registersKept_callTo (target : CodeAddr) (s : State) :
    RegistersKept none false false true 0 s (callTo target s) := by
  simp [RegistersKept]

theorem registersKept_returnFromCall (skip : CodeAddr) (s : State) :
    RegistersKept none false false true 0 s (returnFromCall skip s) := by
  simp [RegistersKept]

theorem registersKept_storePairAtX (l : Octet) (s : State) :
    RegistersKept none true false false 0 s (storePairAtX l s) := by
  simp [RegistersKept]

theorem registersKept_cpIdxField (get : DataAddr → Nibble) (k : IndexReg) (imm : Nibble) (s : State) :
    RegistersKept none false false false 0b0011 s (cpIdxField get k imm s) := by
  simp [RegistersKept, cpIdxField]

theorem registersKept_adcIdxField (get : DataAddr → Nibble) (put : DataAddr → Nibble → DataAddr) (k : IndexReg)
    (imm : Nibble) (s : State) :
    RegistersKept none (k == .x) (k == .y) false 0b0011 s (adcIdxField get put k imm s) := by
  cases k <;> simp [RegistersKept, adcIdxField, State.setIdx]

theorem registersKept_loadIdxField (put : DataAddr → Nibble → DataAddr) (k : IndexReg) (r : Reg) (s : State) :
    RegistersKept none (k == .x) (k == .y) false 0 s (loadIdxField put k r s) := by
  cases k <;> simp [RegistersKept, loadIdxField, State.setIdx]

theorem registersKept_popIdxField (put : DataAddr → Nibble → DataAddr) (k : IndexReg) (s : State) :
    RegistersKept none (k == .x) (k == .y) true 0 s (popIdxField put k s) := by
  cases k <;> simp [RegistersKept, popIdxField, State.setIdx, dropNibble]

/-- After an instruction that wrote no index register, a post-increment writes one. -/
theorem RegistersKept.bumpIdx {dest : Option Reg} {s t : State} (h : RegistersKept dest false false false 0 s t)
    (k : IndexReg) (n : Octet) : RegistersKept dest (k == .x) (k == .y) false 0 s (t.bumpIdx k n) := by
  obtain ⟨a, b, x, y, sp, f⟩ := h
  cases k with
  | x => exact ⟨a, b, by simp, y, sp, f⟩
  | y => exact ⟨a, b, x, by simp, sp, f⟩

/-- Writes of `SP` alone, and of the cell it addresses. -/
theorem registersKept_pushNibble (n : Nibble) (r : Reg) (s : State) :
    RegistersKept none false false true 0 s (pushNibble n (readReg r s).2) := by
  simp [RegistersKept]

theorem registersKept_popR (n : Nibble) (r : Reg) (s : State) :
    RegistersKept (some r) false false true 0 s (dropNibble (writeReg r n (readTop s).2)) := by
  cases r <;> simp [RegistersKept, dropNibble]

theorem registersKept_setF {flags v : Nibble} {s : State} (kept : v &&& ~~~flags = s.f &&& ~~~flags) :
    RegistersKept none false false false flags s (s.setF v) :=
  ⟨fun _ => rfl, fun _ => rfl, fun _ => rfl, fun _ => rfl, fun _ => rfl, kept⟩

/-- `SET F,i` writes the bits of its mask, `RST F,i` those outside it (R180, R181). -/
theorem or_mask_kept : ∀ f mask : Nibble, (f ||| mask) &&& ~~~mask = f &&& ~~~mask := by decide
theorem and_mask_kept : ∀ f mask : Nibble, (f &&& mask) &&& ~~~~~~mask = f &&& ~~~~~~mask := by decide

/-- Every instruction writes only what its rule's "Operation" and "Flags" lines let it write, as the tables list it. -/
theorem exec_registersKept (i : Instr) (s t : State) (h : exec i s = .next t) :
    RegistersKept (destOperand i) (writesX i) (writesY i) (writesSP i) (flagsWritten i) s t := by
  cases i
  case notR r => exact registersKept_notR r s t h
  all_goals obtain rfl := Host.Outcome.next.inj h
  case addRI | adcRI | sbcRI => exact registersKept_arithImm ..
  case addRQ | adcRQ | subRQ | sbcRQ => exact registersKept_arithReg ..
  case andRI | orRI | xorRI => exact registersKept_logicImm ..
  case andRQ | orRQ | xorRQ => exact registersKept_logicReg ..
  case rlc | rrc => exact registersKept_rotateReg ..
  case acpx | scpx => exact registersKept_arithIndexed _ .x ..
  case acpy | scpy => exact registersKept_arithIndexed _ .y ..
  case incMn | decMn => exact registersKept_countCell ..
  case cpRI | cpRQ | fanRI | fanRQ => simp [RegistersKept, destOperand, flagsWritten]
  case ldRQ => exact registersKept_copyReg ..
  case ldpxRQ r q => exact (registersKept_copyReg r q s).bumpIdx .x 1
  case ldpyRQ r q => exact (registersKept_copyReg r q s).bumpIdx .y 1
  case ldRI | ldrSPH | ldrSPL | ldrXP | ldrXH | ldrXL | ldrYP | ldrYH | ldrYL => exact registersKept_writeReg ..
  case ldpxMX imm => exact (registersKept_writeReg .mx imm s).bumpIdx .x 1
  case ldpyMY imm => exact (registersKept_writeReg .my imm s).bumpIdx .y 1
  case ldMnA | ldMnB | ldAMn | ldBMn => simp [RegistersKept, destOperand, flagsWritten]
  case ldXPr | ldXHr | ldXLr => exact registersKept_loadIdxField _ .x ..
  case ldYPr | ldYHr | ldYLr => exact registersKept_loadIdxField _ .y ..
  case adcXH | adcXL => exact registersKept_adcIdxField _ _ .x ..
  case adcYH | adcYL => exact registersKept_adcIdxField _ _ .y ..
  case cpXH | cpXL | cpYH | cpYL => exact registersKept_cpIdxField ..
  case incX | incY | ldXi | ldYi => simp [RegistersKept, writesX, writesY, flagsWritten, State.bumpIdx, State.setIdx]
  case ldSPHr | ldSPLr | incSP | decSP => simp [RegistersKept, writesSP, flagsWritten]
  case pushR r => exact registersKept_pushNibble _ r s
  case pushXP | pushXH | pushXL | pushYP | pushYH | pushYL | pushF => exact registersKept_pushNibble _ .a s
  case popR => exact registersKept_popR ..
  case popXP | popXH | popXL => exact registersKept_popIdxField _ .x ..
  case popYP | popYH | popYL => exact registersKept_popIdxField _ .y ..
  case popF => simp [RegistersKept, writesSP, isPop, flagsWritten, dropNibble]
  case call | calz => exact registersKept_callTo ..
  case ret | rets => exact registersKept_returnFromCall ..
  case retd => simp [RegistersKept, writesX, writesSP, isReturn, flagsWritten]
  case lbpx => exact registersKept_storePairAtX ..
  case jp | jpC | jpNC | jpZ | jpNZ => exact registersKept_jumpIf ..
  case scf | rcf | szf | rzf | sdf | rdf | ei | di => simp [RegistersKept, flagsWritten]
  case setF => exact registersKept_setF (or_mask_kept ..)
  case rstF => exact registersKept_setF (and_mask_kept ..)
  case halt | slp => simp [RegistersKept, flagsWritten, enterStopped]
  case pset | jpba | nop5 | nop7 => simp [RegistersKept, flagsWritten]

/-- Settles O34: `RegistersKept` is its conclusion, shown shape by shape. -/
theorem instructionsLeaveOtherRegistersAlone : Obligations.InstructionsLeaveOtherRegistersAlone :=
  exec_registersKept

/-! ### The state of the step -/

@[simp] theorem jumpIf_keeps (c : Bool) (dest : Octet) (s : State) :
    (jumpIf c dest s).pc = s.pc ∧ (jumpIf c dest s).np = s.np ∧ (jumpIf c dest s).rom = s.rom ∧
      (jumpIf c dest s).clkStamp = s.clkStamp ∧ (jumpIf c dest s).ticks = s.ticks ∧ (jumpIf c dest s).k0 = s.k0 ∧
      (jumpIf c dest s).k1 = s.k1 ∧ (jumpIf c dest s).callDepth = s.callDepth ∧
      (jumpIf c dest s).breakpoints = s.breakpoints ∧ (jumpIf c dest s).params = s.params ∧
      (jumpIf c dest s).stop = s.stop := by
  cases c <;> simp [jumpIf]

/-- What the control of the machine goes by, apart from the registers and the data side: the program counter and its temporary,
`NP`, `call_depth`, `run`, and what only a step or the host writes; all else as at reset. -/
def State.controlSide (s : State) : State :=
  { State.reset with
    pc := s.pc, np := s.np, nextPc := s.nextPc, rom := s.rom, clkStamp := s.clkStamp, ticks := s.ticks, k0 := s.k0, k1 := s.k1
    callDepth := s.callDepth, run := s.run, breakpoints := s.breakpoints, params := s.params, stop := s.stop }

/-- An instruction that neither transfers control, nor writes `NP`, nor stops the machine, leaves the control side alone. -/
def isControl : Instr → Bool
  | .pset _ => true
  | .halt => true
  | .slp => true
  | i => isJump i || isCall i || isReturn i

theorem exec_controlSide (i : Instr) (s t : State) (h : exec i s = .next t) (plain : isControl i = false) :
    t.controlSide = s.controlSide := by
  cases i
  case pset | jp | jpC | jpNC | jpZ | jpNZ | jpba | call | calz | ret | rets | retd | halt | slp => contradiction
  all_goals
    obtain rfl := Host.Outcome.next.inj h
    simp [State.controlSide, arithImm, arithReg, arithIndexed, logicImm, logicReg, rotateReg, copyReg, loadIdxField,
      storeIdxField, adcIdxField, cpIdxField, popIdxField, dropNibble, State.bumpIdx, State.setIdx]

/-- Settles O37: all but fourteen instructions leave the control side alone, and those write of it what their rule says. -/
theorem instructionsNeverWriteStepState : Obligations.InstructionsNeverWriteStepState := by
  intro i s t h
  cases control : isControl i with
  | false =>
    have side := exec_controlSide i s t h control
    simp only [State.controlSide, State.mk.injEq, true_and] at side
    obtain ⟨pc, np, nextPc, rom, clkStamp, ticks, k0, k1, callDepth, run, breakpoints, params, stop⟩ := side
    exact ⟨pc, ticks, clkStamp, k0, k1, rom, breakpoints, params, stop, fun _ => np,
      fun _ _ => ⟨callDepth, fun _ => nextPc⟩, fun _ _ => run⟩
  | true =>
    cases i
    case pset => obtain rfl := Host.Outcome.next.inj h; simp [isPset]
    case jp | jpC | jpNC | jpZ | jpNZ | jpba =>
      obtain rfl := Host.Outcome.next.inj h
      simp [isPset, isJump]
    case call | calz => obtain rfl := Host.Outcome.next.inj h; simp [isCall]
    case ret | rets | retd => obtain rfl := Host.Outcome.next.inj h; simp [isReturn]
    case halt | slp => obtain rfl := Host.Outcome.next.inj h; simp [enterStopped]
    all_goals contradiction

end Sys2Proof.Machine
end

section
/-! Settles what a step does around its instruction, which steps end execution, and what no step changes
(spec/40_execution_cycle.md section 1, spec/20_memory.md R51, R54). -/

namespace Sys2Proof.Machine

/-! ### The step that runs an instruction (R80) -/

theorem step_eq_finishStep {s t : State} {i : Instr} (ready : s.run = .ready) (inRom : s.pc.toNat < s.params.romWords)
    (decoded : decode (s.romWord s.pc) = .ok i) (answers : exec i (prepare s) = .next t) :
    step s = .next (finishStep i t) := by
  simp only [step, ready, fetch_of_lt s inRom, decoded, answers]

/-! ### A loaded ROM reads back (R18, R41) -/

theorem romImage_wf (a : Nat) (image : List InstrWord) : Rom.wf (romImage a image) = true := by
  induction image generalizing a with
  | nil => rfl
  | cons w ws ih =>
    unfold romImage
    split
    · exact sparseWrite_wf blankRomWord 8192 0 a w _ (Nat.zero_le _) ‹_› (ih (a + 1))
    · rfl

theorem sparseRead_romImage (a k : Nat) (image : List InstrWord) (w : InstrWord) (listed : image[k]? = some w)
    (reached : a + k < 8192) : sparseRead blankRomWord (romImage a image) (a + k) = w := by
  induction image generalizing a k with
  | nil => cases listed
  | cons v vs ih =>
    rw [romImage, if_pos (by omega)]
    cases k with
    | zero =>
      obtain rfl : v = w := by simpa using listed
      exact sparseRead_write_same blankRomWord 8192 0 a v _ (romImage_wf (a + 1) vs)
    | succ k =>
      rw [sparseRead_write_other blankRomWord a _ v _ (by omega), Nat.add_comm k 1, ← Nat.add_assoc]
      exact ih (a + 1) k (by simpa using listed) (by omega)

theorem romWord_loadRom (s : State) (image : List InstrWord) (a : CodeAddr) (w : InstrWord)
    (listed : image[a.toNat]? = some w) : (loadRom image s).romWord a = w := by
  have read := sparseRead_romImage 0 a.toNat image w listed (by omega)
  rwa [Nat.zero_add] at read

/-- Settles O28: every instruction answers, so the step comes to its end; an image is read back word by word. -/
theorem stepRunsTheDecodedInstruction : Obligations.StepRunsTheDecodedInstruction := by
  refine ⟨fun s i ready inRom decoded => ?_, fun s image a w listed => romWord_loadRom s image a w listed⟩
  obtain ⟨t, answers, -⟩ := exec_next_run i (prepare s)
  exact ⟨t, answers, step_eq_finishStep ready inRom decoded answers⟩

/-! ### The phases after the instruction (R84 to R89) -/

theorem cycles_eq_declaredCost (i : Instr) : i.cycles = declaredCost i := by
  cases i <;> rfl

theorem finishStep_of_stopped (i : Instr) (t : State) (h : t.run = .stopped) : finishStep i t = endStopped t := if_pos h

theorem finishStep_of_ready (i : Instr) (t : State) (h : t.run = .ready) :
    finishStep i t = endStep (serviceInterrupts i (serviceTimers (reloadNp i (commit i t)))) :=
  if_neg (by rw [h]; decide)

/-- The commit, the tick count and the reload of `NP` in one: the state whose timers are serviced. -/
theorem reloadNp_commit (i : Instr) (t : State) :
    reloadNp i (commit i t) =
      ((t.setTicks (t.ticks + declaredCost i)).setPc t.nextPc).setNp (if isPset i then t.np else pcBankPage t.nextPc) := by
  rw [← cycles_eq_declaredCost, reloadNp]
  cases isPset i <;> rfl

theorem serviceInterrupts_of_none (i : Instr) (t : State) (h : t.flagI = false ∨ isPset i = true) :
    serviceInterrupts i t = t := by
  obtain h | h := h <;> simp [serviceInterrupts, h]

theorem serviceInterrupts_of_enabled (i : Instr) (t : State) (enabled : t.flagI = true) (h : isPset i = false) :
    serviceInterrupts i t = processInterrupts t := by
  simp [serviceInterrupts, enabled, h]

theorem endStep_eq (t : State) : endStep t = { t with nextPc := t.pc, stop := t.breakpoints.contains t.pc } := rfl

/-! The timers look neither at `PC` nor at `NP` (R321). -/

theorem serviceClockTimer_setPc_setNp (s : State) (pc : CodeAddr) (np : BankPage) :
    serviceClockTimer ((s.setPc pc).setNp np) = ((serviceClockTimer s).setPc pc).setNp np := by
  simp only [serviceClockTimer, clockLoop_eq]
  rfl

theorem progPeriodPass_setPc_setNp (s : State) (pc : CodeAddr) (np : BankPage) :
    progPeriodPass ((s.setPc pc).setNp np) = ((progPeriodPass s).setPc pc).setNp np := by
  by_cases last : s.ptData = 1
  · rw [progPeriodPass_reloads s last, progPeriodPass_reloads _ (by simpa using last), generateInterrupt_eq,
      generateInterrupt_eq]
    rfl
  · rw [progPeriodPass_counts s last, progPeriodPass_counts _ (by simpa using last)]
    rfl

theorem progLoop_setPc_setNp (n : Nat) (s : State) (pc : CodeAddr) (np : BankPage) :
    progLoop n ((s.setPc pc).setNp np) = ((progLoop n s).setPc pc).setNp np := by
  induction n generalizing s with
  | zero => rfl
  | succ n ih => rw [progLoop, progPeriodPass_setPc_setNp, ih, progLoop]

theorem serviceProgTimer_setPc_setNp (s : State) (pc : CodeAddr) (np : BankPage) :
    serviceProgTimer ((s.setPc pc).setNp np) = ((serviceProgTimer s).setPc pc).setNp np := by
  cases enabled : s.ptEnabled with
  | false => rw [serviceProgTimer_of_disabled s enabled, serviceProgTimer_of_disabled _ (by simpa using enabled)]
  | true =>
    rw [serviceProgTimer_of_enabled s enabled, serviceProgTimer_of_enabled _ (by simpa using enabled),
      progLoop_setPc_setNp]
    rfl

theorem serviceTimers_setPc_setNp (s : State) (pc : CodeAddr) (np : BankPage) :
    serviceTimers ((s.setPc pc).setNp np) = ((serviceTimers s).setPc pc).setNp np := by
  rw [serviceTimers, serviceClockTimer_setPc_setNp, serviceProgTimer_setPc_setNp, serviceTimers]

/-- Settles O29: with no interrupt serviced, the end of the step is one update of the state that the timers leave. -/
theorem stepCommitsCountsAndReloads : Obligations.StepCommitsCountsAndReloads := by
  intro s t i ready inRom decoded answers running none
  obtain ⟨-, ticks, -, -, -, -, breakpoints, -⟩ := instructionsNeverWriteStepState i (prepare s) t answers
  refine ⟨_, step_eq_finishStep ready inRom decoded answers, ?_⟩
  rw [finishStep_of_ready i t running, serviceInterrupts_of_none i _ (by simpa using none), reloadNp_commit,
    serviceTimers_setPc_setNp, endStep_eq]
  have counted : t.setTicks (t.ticks + declaredCost i) = { t with ticks := s.ticks + declaredCost i } := by
    rw [ticks]; rfl
  have np : (if isPset i = true then t.np else pcBankPage t.nextPc).toNat =
      if isPset i = true then t.np.toNat else t.nextPc.toNat / 256 := by
    rw [apply_ite BitVec.toNat, pcBankPage_toNat]
  rw [counted]
  simp [breakpoints, np, running, serviceTimers]

/-- Settles O30: the phases in their order, the interrupts serviced after the timers. -/
theorem stepServicesInterruptsAfterTimers : Obligations.StepServicesInterruptsAfterTimers := by
  refine ⟨fun s => rfl, fun s t i ready inRom decoded answers running enabled notPset => ?_⟩
  obtain ⟨-, -, -, -, -, -, breakpoints, -⟩ := instructionsNeverWriteStepState i (prepare s) t answers
  refine ⟨_, step_eq_finishStep ready inRom decoded answers, ?_⟩
  have counted : reloadNp i (commit i t) =
      { t with pc := t.nextPc, ticks := t.ticks + declaredCost i, np := pcBankPage t.nextPc } := by
    rw [reloadNp_commit, notPset]; rfl
  rw [finishStep_of_ready i t running, counted, serviceInterrupts_of_enabled i _ ?enabled notPset, endStep_eq]
  case enabled => simp only [serviceTimers_keeps]; exact enabled
  simp only [processInterrupts_keeps, serviceTimers_keeps, breakpoints, prepare_keeps]

/-! ### The end of execution (R90, R122, R123) -/

/-- A halting step: the halt indication, and nothing committed. -/
theorem step_of_halting {s : State} {i : Instr} (ready : s.run = .ready) (inRom : s.pc.toNat < s.params.romWords)
    (decoded : decode (s.romWord s.pc) = .ok i) (halting : i = .halt ∨ i = .slp) :
    step s = .next (endStopped (enterStopped (prepare s))) := by
  have answers : exec i (prepare s) = .next (enterStopped (prepare s)) := by
    obtain rfl | rfl := halting <;> rfl
  rw [step_eq_finishStep ready inRom decoded answers, finishStep_of_stopped i _ (enterStopped_run _)]

/-- Settles O31: the halting step puts `next_pc` back to `PC`; a stopped machine that has returned 1 stays as it is. -/
theorem haltEndsExecution : Obligations.HaltEndsExecution := by
  intro s i ready nextPc inRom decoded halting
  refine ⟨_, step_of_halting ready inRom decoded halting, ?_, step_idle _ (by simp)⟩
  rw [enterStopped_eq, endStopped, prepare]
  simp only [State.setNextPc, State.setStop, nextPc]

/-- No host event but a reset touches `run`. -/
theorem applyHostEvent_run (e : HostEvent) (s : State) (h : e ≠ .reset) : (applyHostEvent e s).run = s.run := by
  cases e with
  | reset => exact absurd rfl h
  | setInputPin pin level =>
    simp only [applyHostEvent, setInputPin]
    (repeat' split) <;> simp
  | setBreakpoints l => rfl
  | refreshOutputs => rfl
  | loadRom image => rfl

/-- Settles O33: a step of a stopped machine only sets `stop`. -/
theorem onlyResetLeavesAStop : Obligations.OnlyResetLeavesAStop := by
  refine ⟨fun s t stopped h => ?_, fun s e h => applyHostEvent_run e s h, fun s => rfl⟩
  obtain rfl := Host.Outcome.next.inj ((step_idle s stopped).symm.trans h)
  rfl

/-! ### What no step changes (R51, R54) -/

theorem memWrite_outputs_prefix (k : DataAddr) (n : Nibble) (s : State) : s.outputs <+: (memWrite k n s).outputs := by
  unfold memWrite ioWrite
  (repeat' split) <;> simp

theorem exec_outputs_prefix (i : Instr) (s t : State) (h : exec i s = .next t) : s.outputs <+: t.outputs := by
  obtain ⟨ws, -, side⟩ := exec_accesses i s t h
  have appended : s.outputs <+: (writeAll ws (readAll (readAddrs i s) s)).outputs :=
    accesses_induction (fun u => s.outputs <+: u.outputs) _ ws s (fun _ _ u hu => by simpa using hu)
      (fun k _ n u hu => hu.trans (memWrite_outputs_prefix k n u)) List.prefix_rfl
  rw [(same_of_dataSide _ t side).2.2, emit_outputs]
  exact appended.trans (List.prefix_append _ _)

/-- What every entry into an interrupt keeps, their servicing keeps. -/
theorem processInterrupts_induction (P : State → Prop) (s : State) (enter : ∀ i u, P u → P (enterInterrupt i u))
    (start : P s) : P (processInterrupts s) := by
  refine List.foldlRecOn slotOrder enterIfTriggered start (fun u hu i _ => ?_)
  unfold enterIfTriggered
  split
  · exact enter i u hu
  · exact hu

theorem enterInterrupt_outputs_prefix (i : SlotId) (s : State) : s.outputs <+: (enterInterrupt i s).outputs := by
  have pushed : s.outputs <+: (pushPC s.pc s).outputs :=
    pushPC_induction (fun u => s.outputs <+: u.outputs) s.pc s
      (fun k _ n u hu => hu.trans (memWrite_outputs_prefix k n u)) (fun _ _ hu => hu) List.prefix_rfl
  simpa [enterInterrupt] using pushed

/-- The servicing of interrupts takes back neither ticks nor outputs. -/
theorem serviceInterrupts_grows (i : Instr) (s : State) :
    s.ticks ≤ (serviceInterrupts i s).ticks ∧ s.outputs <+: (serviceInterrupts i s).outputs := by
  unfold serviceInterrupts
  split
  · refine processInterrupts_induction (fun u => s.ticks ≤ u.ticks ∧ s.outputs <+: u.outputs) s (fun j u hu => ?_)
      ⟨le_rfl, List.prefix_rfl⟩
    obtain ⟨ticks, outputs⟩ := hu
    exact ⟨by rw [enterInterrupt_ticks]; omega, outputs.trans (enterInterrupt_outputs_prefix j u)⟩
  · exact ⟨le_rfl, List.prefix_rfl⟩

/-- What the host owns, and what only grows. -/
def HostKept (s t : State) : Prop :=
  t.rom = s.rom ∧ t.breakpoints = s.breakpoints ∧ t.params = s.params ∧ t.k0 = s.k0 ∧ t.k1 = s.k1 ∧
    s.ticks ≤ t.ticks ∧ s.outputs <+: t.outputs

theorem HostKept.trans {s t u : State} (h : HostKept s t) (h' : HostKept t u) : HostKept s u := by
  obtain ⟨rom, breakpoints, params, k0, k1, ticks, outputs⟩ := h
  obtain ⟨rom', breakpoints', params', k0', k1', ticks', outputs'⟩ := h'
  exact ⟨rom'.trans rom, breakpoints'.trans breakpoints, params'.trans params, k0'.trans k0, k1'.trans k1,
    ticks.trans ticks', outputs.trans outputs'⟩

theorem hostKept_exec (i : Instr) (s t : State) (h : exec i s = .next t) : HostKept s t := by
  obtain ⟨-, ticks, -, k0, k1, rom, breakpoints, params, -⟩ := instructionsNeverWriteStepState i s t h
  exact ⟨rom, breakpoints, params, k0, k1, ticks.ge, exec_outputs_prefix i s t h⟩

theorem hostKept_finishStep (i : Instr) (s : State) : HostKept s (finishStep i s) := by
  unfold finishStep
  split
  · simp [HostKept]
  · obtain ⟨ticks, outputs⟩ := serviceInterrupts_grows i (serviceTimers (reloadNp i (commit i s)))
    rw [reloadNp_commit] at *
    simp only [serviceTimers_keeps, State.setNp_ticks, State.setPc_ticks, State.setTicks_ticks, State.setNp_outputs,
      State.setPc_outputs, State.setTicks_outputs] at ticks outputs
    simp only [HostKept, endStep_keeps, serviceInterrupts_keeps, serviceTimers_keeps]
    exact ⟨rfl, rfl, rfl, rfl, rfl, by omega, outputs⟩

/-- Settles O38: in each of the four kinds of step. -/
theorem stepKeepsWhatTheHostOwns : Obligations.StepKeepsWhatTheHostOwns := by
  intro s t h
  have kept : HostKept s t := by
    obtain ⟨-, rfl⟩ | ⟨-, -, rfl⟩ | ⟨-, -, rfl, -⟩ | ⟨-, -, i, u, -, answers, rfl⟩ := step_cases s t h
    · simp [HostKept, idleStep]
    · simp [HostKept, raiseFault]
    · simp [HostKept, raiseFault]
    · have prepared : HostKept s (prepare s) := by simp [HostKept]
      exact prepared.trans ((hostKept_exec i _ u answers).trans (hostKept_finishStep i u))
  obtain ⟨rom, breakpoints, params, k0, k1, ticks, es, outputs⟩ := kept
  exact ⟨rom, breakpoints, params, k0, k1, ticks, es, outputs.symm⟩

end Sys2Proof.Machine
end

section
/-! Settles the invariant of the machine: it holds at reset, and every step and every host event keeps it (spec/10_state.md,
spec/60_exceptions.md R303, R312, R321 to R323). -/

namespace Sys2Proof.Machine

/-! ### The slots that nothing raises, and the bits that the timers raise -/

/-- What the invariant says of each slot: slot 3 is never armed, the serial and stopwatch slots are never raised, and the timers
raise one bit each of theirs. -/
def SlotState.QuietAt : SlotId → SlotState → Prop
  | .progTimer, g => g.factor &&& 0xE = 0
  | .serial, g => g.factor = 0 ∧ g.triggered = false
  | .k1Pins, _ => True
  | .k0Pins, g => g.mask = 0 ∧ g.triggered = false
  | .stopwatch, g => g.factor = 0 ∧ g.triggered = false
  | .clockTimer, g => g.factor &&& 0x7 = 0

def Slots.Quiet (s : Slots) : Prop := ∀ j, (s.get j).QuietAt j

theorem Slots.Quiet.set {s : Slots} (h : s.Quiet) (i : SlotId) {g : SlotState} (quiet : g.QuietAt i) :
    (s.set i g).Quiet := by
  intro j
  by_cases same : j = i
  · subst same; rwa [Slots.get_set_same]
  · rw [Slots.get_set_other _ _ _ _ same]; exact h j

/-- Clearing the factor, as a read does, or the latch, as an entry does, raises nothing. -/
theorem SlotState.QuietAt.clearFactor {i : SlotId} {g : SlotState} (h : g.QuietAt i) :
    SlotState.QuietAt i { g with factor := 0 } := by
  cases i <;> simp_all [SlotState.QuietAt]

theorem SlotState.QuietAt.clearLatch {i : SlotId} {g : SlotState} (h : g.QuietAt i) :
    SlotState.QuietAt i { g with triggered := false } := by
  cases i <;> simp_all [SlotState.QuietAt]

/-- Outside slot 3 the mask is free. -/
theorem SlotState.QuietAt.congr {i : SlotId} {g g' : SlotState} (h : g.QuietAt i) (factor : g'.factor = g.factor)
    (latch : g'.triggered = g.triggered) (mask : i = .k0Pins → g'.mask = g.mask) : g'.QuietAt i := by
  cases i <;> simp_all [SlotState.QuietAt]

theorem SlotState.quietAt_raise_progTimer {g : SlotState} (h : g.QuietAt .progTimer) : (g.raise 0).QuietAt .progTimer := by
  have kept : ∀ f : Nibble, f &&& 0xE = 0 → (f ||| 1#4 <<< (0#2).toNat) &&& 0xE = 0 := by decide
  exact kept g.factor h

theorem SlotState.quietAt_raise_clockTimer {g : SlotState} (h : g.QuietAt .clockTimer) :
    (g.raise 3).QuietAt .clockTimer := by
  have kept : ∀ f : Nibble, f &&& 0x7 = 0 → (f ||| 1#4 <<< (3#2).toNat) &&& 0x7 = 0 := by decide
  exact kept g.factor h

/-- Slot 3 has no mask, so a fall of its pins latches nothing (R303, U14). -/
theorem SlotState.quietAt_raise_k0Pins {g : SlotState} (b : BitVec 2) (h : g.QuietAt .k0Pins) :
    (g.raise b).QuietAt .k0Pins := by
  obtain ⟨mask, latch⟩ := h
  exact ⟨mask, by simp [SlotState.raise, mask, latch]⟩

/-! ### The part of the invariant that is about the data side -/

structure State.DataInv (s : State) : Prop where
  memWf : Memory.wf s.mem = true
  memBacked : ∀ p ∈ s.mem, s.backed (BitVec.ofNat 12 p.1) = true
  ptStampPast : s.ptStamp ≤ s.ticks
  quiet : s.slots.Quiet

theorem inv_iff (s : State) : s.Inv ↔ s.DataInv ∧ Rom.wf s.rom = true ∧ s.nextPc = s.pc ∧
    (s.run ≠ .ready → s.stop = true) ∧ s.clkStamp ≤ s.ticks := by
  constructor
  · intro h
    refine ⟨⟨h.memWf, h.memBacked, h.ptStampPast, fun j => ?_⟩, h.romWf, h.nextPcIsPc, h.stoppedSays, h.clkStampPast⟩
    cases j with
    | progTimer => exact h.progBit0
    | serial => exact h.serialSilent
    | k1Pins => trivial
    | k0Pins => exact h.k0Silent
    | stopwatch => exact h.stopwatchSilent
    | clockTimer => exact h.clockBit3
  · rintro ⟨⟨memWf, memBacked, ptStampPast, quiet⟩, romWf, nextPcIsPc, stoppedSays, clkStampPast⟩
    exact ⟨memWf, memBacked, romWf, nextPcIsPc, stoppedSays, clkStampPast, ptStampPast, quiet .k0Pins, quiet .serial,
      quiet .stopwatch, quiet .progTimer, quiet .clockTimer⟩

theorem dataInv_dataSide (s : State) : s.dataSide.DataInv ↔ s.DataInv :=
  ⟨fun ⟨memWf, memBacked, ptStampPast, quiet⟩ => ⟨memWf, memBacked, ptStampPast, quiet⟩,
    fun ⟨memWf, memBacked, ptStampPast, quiet⟩ => ⟨memWf, memBacked, ptStampPast, quiet⟩⟩

theorem State.DataInv.congr {s t : State} (h : s.DataInv) (side : t.dataSide = s.dataSide) : t.DataInv := by
  rwa [← dataInv_dataSide, side, dataInv_dataSide]

theorem State.DataInv.emit {s : State} (h : s.DataInv) (es : List Event) : (s.emit es).DataInv :=
  let ⟨memWf, memBacked, ptStampPast, quiet⟩ := h
  ⟨memWf, memBacked, ptStampPast, quiet⟩

theorem State.DataInv.setTicks {s : State} (h : s.DataInv) {n : Nat} (later : s.ticks ≤ n) : (s.setTicks n).DataInv :=
  let ⟨memWf, memBacked, ptStampPast, quiet⟩ := h
  ⟨memWf, memBacked, ptStampPast.trans later, quiet⟩

theorem State.DataInv.setSlots {s : State} (h : s.DataInv) {g : Slots} (quiet : g.Quiet) : (s.setSlots g).DataInv :=
  let ⟨memWf, memBacked, ptStampPast, _⟩ := h
  ⟨memWf, memBacked, ptStampPast, quiet⟩

/-! ### Every access keeps it -/

theorem dataInv_memRead (k : DataAddr) {s : State} (h : s.DataInv) : (memRead k s).2.DataInv := by
  refine ⟨by simpa using h.memWf, by simpa using h.memBacked, by simpa using h.ptStampPast, fun j => ?_⟩
  rw [memRead_state]
  split
  · rw [ioReadEffect_slot]
    split
    · exact (h.quiet j).clearFactor
    · exact h.quiet j
  · exact h.quiet j

/-- A write leaves the stamp of the programmable timer, or moves it to the present (R313). -/
theorem memWrite_ptStamp (k : DataAddr) (n : Nibble) (s : State) :
    (memWrite k n s).ptStamp = s.ptStamp ∨ (memWrite k n s).ptStamp = s.ticks := by
  unfold memWrite ioWrite writePtControl
  dsimp only
  (repeat' split) <;> simp

theorem dataInv_memWrite (k : DataAddr) (n : Nibble) {s : State} (h : s.DataInv) : (memWrite k n s).DataInv := by
  refine ⟨memWrite_wf k n s h.memWf, memWrite_backed k n s h.memBacked, ?_, fun j => ?_⟩
  · have past := h.ptStampPast
    have ticks : (memWrite k n s).ticks = s.ticks := by simp
    obtain stamp | stamp := memWrite_ptStamp k n s <;> omega
  · obtain ⟨factor, latch⟩ := memWrite_slot_flags k n s j
    refine (h.quiet j).congr factor latch (fun k0 => ?_)
    subst k0
    exact congrArg SlotState.mask (memWrite_k0Pins k n s)

theorem dataInv_exec (i : Instr) {s t : State} (h : s.DataInv) (answers : exec i s = .next t) : t.DataInv := by
  obtain ⟨ws, -, side⟩ := exec_accesses i s t answers
  have accessed : (writeAll ws (readAll (readAddrs i s) s)).DataInv :=
    accesses_induction State.DataInv _ ws s (fun k _ _ hu => dataInv_memRead k hu)
      (fun k _ n _ hu => dataInv_memWrite k n hu) h
  exact (accessed.emit _).congr side

/-! ### So do the interrupts and the timers -/

theorem dataInv_enterInterrupt (i : SlotId) {s : State} (h : s.DataInv) : (enterInterrupt i s).DataInv := by
  have pushed : (pushPC s.pc s).DataInv :=
    pushPC_induction State.DataInv s.pc s (fun k _ n _ hu => dataInv_memWrite k n hu) (fun _ _ hu => hu.congr rfl) h
  have past := pushed.ptStampPast
  have stamp : (enterInterrupt i s).ptStamp = (pushPC s.pc s).ptStamp := by simp [enterInterrupt]
  have ticks : (pushPC s.pc s).ticks = s.ticks := by simp
  refine ⟨by simpa using pushed.memWf, by simpa using pushed.memBacked, by rw [stamp, enterInterrupt_ticks]; omega, ?_⟩
  rw [enterInterrupt_slots]
  exact pushed.quiet.set i (pushed.quiet i).clearLatch

theorem dataInv_serviceInterrupts (i : Instr) {s : State} (h : s.DataInv) : (serviceInterrupts i s).DataInv := by
  unfold serviceInterrupts
  split
  · exact processInterrupts_induction State.DataInv s (fun j _ hu => dataInv_enterInterrupt j hu) h
  · exact h

/-- The loop stops within the past, also for a period of 0, for which it does not run (log entry 8). -/
theorem stamp_add_elapsedPeriods_le (p now stamp : Nat) (h : stamp ≤ now) :
    stamp + elapsedPeriods p now stamp * p ≤ now := by
  have := Nat.div_mul_le_self (now - stamp) p
  unfold elapsedPeriods
  omega

theorem clkStamp_serviceClockTimer_le (s : State) (h : s.clkStamp ≤ s.ticks) :
    (serviceClockTimer s).clkStamp ≤ s.ticks := by
  rw [serviceClockTimer, clockLoop_eq]
  exact stamp_add_elapsedPeriods_le _ _ _ h

theorem dataInv_serviceClockTimer {s : State} (h : s.DataInv) : (serviceClockTimer s).DataInv := by
  have quiet (n : Nat) : (clockSlotAfter n s.slots.clockTimer).QuietAt .clockTimer := by
    unfold clockSlotAfter
    split
    · exact h.quiet .clockTimer
    · exact SlotState.quietAt_raise_clockTimer (h.quiet .clockTimer)
  rw [serviceClockTimer, clockLoop_eq]
  exact (h.setSlots (h.quiet.set .clockTimer (quiet _))).congr rfl

theorem quiet_progLoop (n : Nat) (s : State) (h : s.slots.Quiet) : (progLoop n s).slots.Quiet := by
  induction n generalizing s with
  | zero => exact h
  | succ n ih =>
    refine ih _ ?_
    by_cases last : s.ptData = 1
    · rw [progPeriodPass_reloads s last, generateInterrupt_eq]
      exact h.set .progTimer (SlotState.quietAt_raise_progTimer (h .progTimer))
    · rw [progPeriodPass_counts s last]
      exact h

theorem dataInv_serviceProgTimer {s : State} (h : s.DataInv) : (serviceProgTimer s).DataInv := by
  cases enabled : s.ptEnabled with
  | false => rwa [serviceProgTimer_of_disabled s enabled]
  | true =>
    rw [serviceProgTimer_of_enabled s enabled]
    refine ⟨by simpa using h.memWf, by simpa using h.memBacked, ?_, quiet_progLoop _ s h.quiet⟩
    have past := stamp_add_elapsedPeriods_le s.params.progPeriod s.ticks s.ptStamp h.ptStampPast
    simpa [progLoop_ptStamp] using past

/-! ### Steps (R80) -/

theorem inv_finishStep_of_ready (i : Instr) {t : State} (running : t.run = .ready) (data : t.DataInv)
    (romWf : Rom.wf t.rom = true) (past : t.clkStamp ≤ t.ticks) : (finishStep i t).Inv := by
  let counted := reloadNp i (commit i t)
  have eq : counted = ((t.setTicks (t.ticks + declaredCost i)).setPc t.nextPc).setNp
      (if isPset i then t.np else pcBankPage t.nextPc) := reloadNp_commit i t
  have countedInv : counted.DataInv := by
    rw [eq]
    exact (data.setTicks (Nat.le_add_right _ _)).congr rfl
  have countedPast : counted.clkStamp ≤ counted.ticks := by
    simp only [eq, State.setNp_clkStamp, State.setPc_clkStamp, State.setTicks_clkStamp, State.setNp_ticks,
      State.setPc_ticks, State.setTicks_ticks]
    omega
  have timedPast : (serviceTimers counted).clkStamp ≤ (serviceTimers counted).ticks := by
    simpa [serviceTimers] using clkStamp_serviceClockTimer_le counted countedPast
  have servicedInv := dataInv_serviceInterrupts i (dataInv_serviceProgTimer (dataInv_serviceClockTimer countedInv))
  have grows := (serviceInterrupts_grows i (serviceTimers counted)).1
  rw [finishStep_of_ready i t running, inv_iff]
  refine ⟨servicedInv.congr rfl, ?_, rfl, fun stopped => ?_, ?_⟩
  · simpa [eq] using romWf
  · exact absurd (by simpa using running) stopped
  · simp only [endStep_keeps, serviceInterrupts_keeps]
    exact timedPast.trans grows

/-- An instruction that runs and the rest of its step. -/
theorem inv_of_run (i : Instr) {s t : State} (h : s.Inv) (ready : s.run = .ready) (answers : exec i (prepare s) = .next t) :
    (finishStep i t).Inv := by
  obtain ⟨data, romWf, -, -, past⟩ := (inv_iff s).mp h
  obtain ⟨-, ticks, clkStamp, -, -, rom, -⟩ := instructionsNeverWriteStepState i _ t answers
  have prepared : (prepare s).DataInv := data.congr rfl
  have data' : t.DataInv := dataInv_exec i prepared answers
  have romWf' : Rom.wf t.rom = true := by simpa [rom] using romWf
  have past' : t.clkStamp ≤ t.ticks := by simpa [ticks, clkStamp] using past
  obtain ⟨t', answers', run⟩ := exec_next_run i (prepare s)
  obtain rfl := Host.Outcome.next.inj (answers.symm.trans answers')
  by_cases stopped : t.run = .stopped
  · rw [finishStep_of_stopped i t stopped, inv_iff]
    exact ⟨data'.congr rfl, romWf', rfl, fun _ => rfl, past'⟩
  · have running : t.run = .ready := by
      rw [run] at stopped ⊢
      split at stopped
      · exact absurd rfl stopped
      · rename_i other
        rw [if_neg other]
        exact ready
    exact inv_finishStep_of_ready i running data' romWf' past'

/-- Settles O53: in each of the four kinds of step. -/
theorem invariantKeptByEveryStep : Obligations.InvariantKeptByEveryStep := by
  intro s t h answers
  obtain ⟨data, romWf, nextPc, -, past⟩ := (inv_iff s).mp h
  obtain ⟨-, rfl⟩ | ⟨-, -, rfl⟩ | ⟨-, -, rfl, -⟩ | ⟨ready, -, i, u, -, executes, rfl⟩ := step_cases s t answers
  · exact (inv_iff _).mpr ⟨data.congr rfl, romWf, nextPc, fun _ => rfl, past⟩
  · exact (inv_iff _).mpr ⟨data.congr rfl, romWf, nextPc, fun _ => rfl, past⟩
  · exact (inv_iff _).mpr ⟨data.congr rfl, romWf, nextPc, fun _ => rfl, past⟩
  · exact inv_of_run i h ready executes

/-! ### Reset and the other host events -/

theorem inv_afterReset (rom : List (Nat × InstrWord)) (breakpoints : List CodeAddr) (params : Params)
    (outputs : List Event) (romWf : Rom.wf rom = true) : (State.afterReset rom breakpoints params outputs).Inv := by
  refine (inv_iff _).mpr ⟨⟨rfl, fun p hp => absurd hp List.not_mem_nil, le_rfl, fun j => ?_⟩, romWf, rfl,
    fun stopped => absurd rfl stopped, le_rfl⟩
  cases j <;> simp [State.afterReset, Slots.clear, SlotState.clear, Slots.get, SlotState.QuietAt]

/-- Settles O55: reset with nothing loaded. -/
theorem invariantHoldsAtReset : Obligations.InvariantHoldsAtReset :=
  inv_afterReset [] [] defaultParams [] rfl

/-- Raising a pin slot: the latch of slot 3 stays clear, and slot 2 is free. -/
theorem inv_generateInterrupt (i : SlotId) (b : BitVec 2) {s : State} (h : s.Inv)
    (quiet : ((s.slots.get i).raise b).QuietAt i) : (generateInterrupt i b s).Inv := by
  obtain ⟨data, romWf, nextPc, stopped, past⟩ := (inv_iff s).mp h
  rw [generateInterrupt_eq, inv_iff]
  exact ⟨(data.setSlots (data.quiet.set i quiet)).congr rfl, romWf, nextPc, stopped, past⟩

theorem inv_setInputPin (pin : BitVec 3) (level : Bool) {s : State} (h : s.Inv) : (setInputPin pin level s).Inv := by
  have k0 (v : Nibble) : (s.setK0 v).Inv := { h with }
  have k1 (v : Nibble) : (s.setK1 v).Inv := { h with }
  simp only [setInputPin]
  split
  · split
    · exact inv_generateInterrupt .k1Pins _ (k1 _) trivial
    · exact k1 _
  · split
    · exact inv_generateInterrupt .k0Pins _ (k0 _) (SlotState.quietAt_raise_k0Pins _ (k0 0).k0Silent)
    · exact k0 _

/-- Settles O54: one host event after the other. -/
theorem invariantKeptByEveryHostEvent : Obligations.InvariantKeptByEveryHostEvent := by
  intro s e h
  obtain ⟨data, romWf, nextPc, stopped, past⟩ := (inv_iff s).mp h
  cases e with
  | setInputPin pin level => exact inv_setInputPin pin level h
  | reset => exact inv_afterReset s.rom s.breakpoints s.params s.outputs romWf
  | setBreakpoints l => exact (inv_iff _).mpr ⟨data.congr rfl, romWf, nextPc, stopped, past⟩
  | refreshOutputs => exact (inv_iff _).mpr ⟨data.emit _, romWf, nextPc, stopped, past⟩
  | loadRom image => exact (inv_iff _).mpr ⟨data.congr rfl, romImage_wf 0 image, nextPc, stopped, past⟩

end Sys2Proof.Machine
end

section
/-! Settles the pairing of calls and interrupt entries with returns (spec/41_branch.md R112, R113, spec/60_exceptions.md R307) and
the servicing of every triggered slot (R303, R305, R330). -/

namespace Sys2Proof.Machine

/-! ### Where the frame cells are (R12, R112) -/

theorem frameAddr_wrapping (sp : Octet) (k : Int) :
    frameAddr true sp k = some (stackAddr (sp + BitVec.ofInt 8 k)) := rfl

theorem stackAddr_add_ofInt_toNat (sp : Octet) (k : Int) :
    ((stackAddr (sp + BitVec.ofInt 8 k)).toNat : Int) = (sp.toNat + k) % 256 := by
  rw [stackAddr, stackAddr_toNat, BitVec.toNat_add, BitVec.toNat_ofInt]
  omega

theorem ofInt_toNat_of_frame (sp : Octet) (k : Int) (h : 0 ≤ sp.toNat + k) (near : k ≤ 2) :
    ((BitVec.ofInt 12 (sp.toNat + k)).toNat : Int) = sp.toNat + k := by
  have := sp.isLt
  rw [BitVec.toNat_ofInt]
  omega

/-- Settles O23: the wrapping sum, the plain sum where it is not negative, and no cell where it is. -/
theorem frameCellsAreAtTheStackAddresses : Obligations.FrameCellsAreAtTheStackAddresses := by
  intro sp k _ near
  refine ⟨⟨_, frameAddr_wrapping sp k, stackAddr_add_ofInt_toNat sp k⟩,
    fun inside => ⟨_, ?_, ofInt_toNat_of_frame sp k inside near⟩,
    fun below => ?_, fun s a => ⟨rfl, rfl⟩⟩
  · simp [frameAddr, not_lt.mpr inside]
  · simp [frameAddr, below]

/-! ### A pushed return address is popped again (R112) -/

/-- The cells from the lowered `SP` up are the cells below the old one. -/
theorem frameAddr_lowered (sp : Octet) :
    frameAddr true (sp - 3) 0 = frameAddr true sp (-3) ∧ frameAddr true (sp - 3) 1 = frameAddr true sp (-2) ∧
      frameAddr true (sp - 3) 2 = frameAddr true sp (-1) := by
  revert sp; decide

theorem frameRead_plain (k : DataAddr) (s : State) (backed : s.backed k = true) (plain : s.ioAccess k = false) :
    frameRead (some k) s = (s.cell k, s) :=
  Prod.ext (memRead_value_plain k s plain backed) (memRead_state_plain k s plain)

/-- In a state `t` whose cells below the `SP` of `s` hold `ra` and whose `SP` is the lowered one, `PopPC` in the bank of `ra` gives
`ra`: three plain cells, the lowest first. -/
theorem popPC_of_frameHolds {ra : CodeAddr} {s t : State} (frame : FrameHolds ra s t) (plain : PlainFrame s)
    (params : t.params = s.params) (sp : t.sp = s.sp - 3) (bank : pcBank t.pc = pcBank ra) : (popPC t).1 = ra := by
  obtain ⟨wraps, cells⟩ := plain
  obtain ⟨page, high, low⟩ := frame
  obtain ⟨lowAt, highAt, pageAt⟩ := frameAddr_lowered s.sp
  simp only [wraps, frameAddr_wrapping, Option.some.injEq, forall_eq'] at page high low lowAt highAt pageAt
  have read (k : Int) (hk : k ∈ [-1, -2, -3]) :
      frameRead (some (stackAddr (s.sp + BitVec.ofInt 8 k))) t = (t.cell (stackAddr (s.sp + BitVec.ofInt 8 k)), t) ∧
        s.backed (stackAddr (s.sp + BitVec.ofInt 8 k)) = true := by
    have listed : stackAddr (s.sp + BitVec.ofInt 8 k) ∈ pushFrame s := by
      simp only [List.mem_cons, List.not_mem_nil, or_false] at hk
      rcases hk with rfl | rfl | rfl <;> simp [pushFrame, wraps, frameAddr_wrapping]
    obtain ⟨backed, noIo⟩ := cells _ listed
    exact ⟨frameRead_plain _ t ((backed_of_params params _).trans backed) ((ioAccess_of_params params _).trans noIo), backed⟩
  obtain ⟨readPage, backedPage⟩ := read (-1) (by simp)
  obtain ⟨readHigh, backedHigh⟩ := read (-2) (by simp)
  obtain ⟨readLow, backedLow⟩ := read (-3) (by simp)
  simp only [popPC, params, sp, wraps, frameAddr_wrapping, lowAt, highAt, pageAt, readPage, readHigh, readLow,
    page backedPage, high backedHigh, low backedLow, bank]
  exact codeAddr_rebuild ra

/-- `RET` where `SP` is the lowered one and the frame holds `ra`. -/
theorem returnFromCall_of_frameHolds {ra : CodeAddr} {s t : State} (frame : FrameHolds ra s t) (plain : PlainFrame s)
    (params : t.params = s.params) (sp : t.sp = s.sp - 3) (bank : pcBank t.pc = pcBank ra) :
    (returnFromCall 0 t).nextPc = ra ∧ (returnFromCall 0 t).sp = s.sp := by
  refine ⟨?_, ?_⟩
  · rw [returnFromCall_nextPc, popPC_of_frameHolds frame plain params sp bank, add_zero]
  · rw [returnFromCall_sp, sp, BitVec.sub_add_cancel]

/-- Settles O24: both calls are `callTo`, whose frame the return pops. -/
theorem returnUndoesCall : Obligations.ReturnUndoesCall := by
  intro d s pc hw plain bank i hi
  have undone (target : CodeAddr) : ∃ u, exec .ret ((callTo target s).setPc pc) = .next u ∧ u.nextPc = s.pc + 1 ∧
      u.sp = s.sp ∧ u.callDepth = s.callDepth := by
    have frame : FrameHolds (s.pc + 1) s ((callTo target s).setPc pc) :=
      frameHolds_congr _ _ _ _ (callTo_frameHolds target s hw) rfl
    obtain ⟨nextPc, sp⟩ := returnFromCall_of_frameHolds frame plain (by simp) (by simp) bank
    exact ⟨_, exec_ret _, nextPc, sp, by simp⟩
  simp only [List.mem_cons, List.not_mem_nil, or_false] at hi
  obtain rfl | rfl := hi
  · obtain ⟨u, returned⟩ := undone (codeAddrOf (pcBank s.pc) (npPage s.np) d)
    exact ⟨_, u, exec_call d s, returned⟩
  · obtain ⟨u, returned⟩ := undone (codeAddrOf (pcBank s.pc) 0 d)
    exact ⟨_, u, exec_calz d s, returned⟩

/-- Settles O47: the entry pushes the interrupted address itself, and clears `I`, which the return leaves alone. -/
theorem returnUndoesInterruptEntry : Obligations.ReturnUndoesInterruptEntry := by
  intro s i pc hw plain bank
  have frame : FrameHolds s.pc s ((enterInterrupt i s).setPc pc) :=
    frameHolds_congr _ _ _ _ (pushPC_holds s.pc s hw) (enterInterrupt_mem i s)
  obtain ⟨nextPc, sp⟩ :=
    returnFromCall_of_frameHolds frame plain (by simp) (by simp [enterInterrupt_sp]) bank
  obtain ⟨-, -, -, disabled⟩ := enterInterrupt_flags i s
  refine ⟨_, exec_ret _, nextPc, sp, ?_, ?_⟩
  · simp [enterInterrupt_callDepth]
  · simpa using disabled

/-! ### N calls and N returns (R113) -/

theorem execAll_append (l m : List Instr) {s t : State} (h : execAll l s = some t) : execAll (l ++ m) s = execAll m t := by
  induction l generalizing s with
  | nil =>
    obtain rfl : s = t := by simpa [execAll] using h
    rfl
  | cons i l ih =>
    simp only [execAll, List.cons_append] at h ⊢
    split at h
    · exact ih h
    · cases h

theorem exec_of_isCall {i : Instr} (h : isCall i = true) (s : State) :
    ∃ t, exec i s = .next t ∧ t.sp = s.sp - 3 ∧ t.callDepth = s.callDepth + 1 := by
  cases i
  case call d => exact ⟨_, exec_call d s, callTo_sp _ s, callTo_callDepth _ s⟩
  case calz d => exact ⟨_, exec_calz d s, callTo_sp _ s, callTo_callDepth _ s⟩
  all_goals contradiction

theorem exec_of_isReturn {i : Instr} (h : isReturn i = true) (s : State) :
    ∃ t, exec i s = .next t ∧ t.sp = s.sp + 3 ∧ t.callDepth = s.callDepth - 1 := by
  cases i
  case ret => exact ⟨_, exec_ret s, returnFromCall_sp _ s, returnFromCall_callDepth _ s⟩
  case rets => exact ⟨_, exec_rets s, returnFromCall_sp _ s, returnFromCall_callDepth _ s⟩
  case retd l => exact ⟨_, exec_retd l s, by simp, by simp⟩
  all_goals contradiction

/-- Instructions that each move `SP` and `call_depth` by the same amounts move them by so many times these amounts. -/
theorem execAll_of_uniform (dsp : Octet) (depth : Int) (l : List Instr) (s : State)
    (moves : ∀ i ∈ l, ∀ s, ∃ t, exec i s = .next t ∧ t.sp = s.sp + dsp ∧ t.callDepth = s.callDepth + depth) :
    ∃ t, execAll l s = some t ∧ t.sp = s.sp + BitVec.ofNat 8 l.length * dsp ∧
      t.callDepth = s.callDepth + l.length * depth := by
  induction l generalizing s with
  | nil => exact ⟨s, rfl, by simp, by simp⟩
  | cons i l ih =>
    obtain ⟨t, answers, sp, callDepth⟩ := moves i List.mem_cons_self s
    obtain ⟨u, rest, sp', callDepth'⟩ := ih t (fun j hj => moves j (List.mem_cons_of_mem _ hj))
    refine ⟨u, by simpa only [execAll, answers] using rest, ?_, ?_⟩
    · rw [sp', sp, List.length_cons, Nat.add_comm, BitVec.ofNat_add, BitVec.add_mul, BitVec.one_mul, BitVec.add_assoc]
    · rw [callDepth', callDepth, List.length_cons]
      push_cast
      ring

/-- Settles O25: the calls move `SP` by -3 and `call_depth` by 1 each, the returns back. -/
theorem balancedCallsRestoreDepthAndStackPointer : Obligations.BalancedCallsRestoreDepthAndStackPointer := by
  intro calls returns s areCalls areReturns balanced
  obtain ⟨t, called, sp, depth⟩ := execAll_of_uniform (-3) 1 calls s (fun i hi u => by
    simpa only [sub_eq_add_neg] using exec_of_isCall (areCalls i hi) u)
  obtain ⟨u, returned, sp', depth'⟩ := execAll_of_uniform 3 (-1) returns t (fun i hi u => by
    simpa only [sub_eq_add_neg] using exec_of_isReturn (areReturns i hi) u)
  refine ⟨u, (execAll_append calls returns called).trans returned, ?_, ?_⟩
  · rw [depth', depth, balanced]
    ring
  · rw [sp', sp, balanced]
    ring

/-! ### Every triggered slot is serviced (R305, R330) -/

/-- Entering the slots of a list that are triggered is entering those that were triggered at the start: an entry changes no latch
but its own, and the list names each slot once. -/
theorem foldl_enterIfTriggered (l : List SlotId) (distinct : l.Nodup) (s u : State)
    (same : ∀ j ∈ l, (u.slots.get j).triggered = (s.slots.get j).triggered) :
    l.foldl enterIfTriggered u =
      (l.filter (fun i => (s.slots.get i).triggered)).foldl (fun t i => enterInterrupt i t) u := by
  induction l generalizing u with
  | nil => rfl
  | cons i l ih =>
    obtain ⟨fresh, distinct⟩ := List.nodup_cons.mp distinct
    have here := same i List.mem_cons_self
    rw [List.foldl_cons, enterIfTriggered, here]
    cases triggered : (s.slots.get i).triggered with
    | false =>
      rw [List.filter_cons_of_neg (by simp [triggered])]
      exact ih distinct u (fun j hj => same j (List.mem_cons_of_mem _ hj))
    | true =>
      rw [List.filter_cons_of_pos (by simp [triggered]), List.foldl_cons]
      refine ih distinct _ (fun j hj => ?_)
      obtain ⟨-, latch, -⟩ := enterInterrupt_slot i j u
      rw [if_pos rfl, latch (fun e => fresh (e ▸ hj))]
      exact same j (List.mem_cons_of_mem _ hj)

theorem processInterrupts_eq (s : State) :
    processInterrupts s = (triggeredSlots s).foldl (fun t i => enterInterrupt i t) s :=
  foldl_enterIfTriggered slotOrder (by decide) s s (fun _ _ => rfl)

/-- What entering one slot after another adds up to. -/
theorem foldl_enterInterrupt_counts (l : List SlotId) (s : State) :
    (l.foldl (fun t i => enterInterrupt i t) s).callDepth = s.callDepth + l.length ∧
      (l.foldl (fun t i => enterInterrupt i t) s).ticks = s.ticks + 12 * l.length ∧
      (l.foldl (fun t i => enterInterrupt i t) s).sp.toNat = (s.sp.toNat + 253 * l.length) % 256 := by
  induction l generalizing s with
  | nil => exact ⟨by simp, by simp, by simp; omega⟩
  | cons i l ih =>
    obtain ⟨depth, ticks, sp⟩ := ih (enterInterrupt i s)
    rw [enterInterrupt_callDepth] at depth
    rw [enterInterrupt_ticks] at ticks
    rw [enterInterrupt_sp, octet_sub_three_toNat] at sp
    simp only [List.foldl_cons, List.length_cons]
    exact ⟨by rw [depth]; push_cast; ring, by rw [ticks]; ring, by rw [sp]; omega⟩

/-- The entries clear the latches of the slots entered, and change no other latch and no factor. -/
theorem foldl_enterInterrupt_slot (l : List SlotId) (s : State) (j : SlotId) :
    ((l.foldl (fun t i => enterInterrupt i t) s).slots.get j).factor = (s.slots.get j).factor ∧
      ((l.foldl (fun t i => enterInterrupt i t) s).slots.get j).triggered =
        (!l.contains j && (s.slots.get j).triggered) := by
  induction l generalizing s with
  | nil => simp
  | cons i l ih =>
    obtain ⟨factor, latch⟩ := ih (enterInterrupt i s)
    obtain ⟨factor', latch', -⟩ := enterInterrupt_slot i j s
    refine ⟨factor.trans factor', latch.trans ?_⟩
    by_cases same : j = i
    · subst same
      simp [enterInterrupt_slot_same]
    · simp [latch' same, same]

theorem foldl_enterInterrupt_bank (l : List SlotId) (s : State) :
    pcBank (l.foldl (fun t i => enterInterrupt i t) s).pc = pcBank s.pc := by
  induction l generalizing s with
  | nil => rfl
  | cons i l ih => rw [List.foldl_cons, ih, enterInterrupt_pc, (codeAddrOf_parts _ _ _).1]

/-- `PC` goes to the vector of the last slot entered, always in the bank it was in. -/
theorem foldl_enterInterrupt_last (l : List SlotId) (s : State) (i : SlotId) (last : l.getLast? = some i) :
    (l.foldl (fun t i => enterInterrupt i t) s).flagI = false ∧
      (l.foldl (fun t i => enterInterrupt i t) s).pc = codeAddrOf (pcBank s.pc) 1 (vectorStep i) := by
  obtain ⟨front, rfl⟩ := List.getLast?_eq_some_iff.mp last
  rw [List.foldl_append]
  obtain ⟨-, -, -, disabled⟩ := enterInterrupt_flags i (front.foldl (fun t i => enterInterrupt i t) s)
  exact ⟨disabled, by simp [enterInterrupt_pc, foldl_enterInterrupt_bank]⟩

theorem contains_triggeredSlots (s : State) (j : SlotId) :
    (triggeredSlots s).contains j = (s.slots.get j).triggered := by
  have listed : j ∈ slotOrder := by cases j <;> decide
  cases triggered : (s.slots.get j).triggered <;> simp [triggeredSlots, listed, triggered]

/-- Settles O48: the servicing is the entries into the triggered slots, one after the other. -/
theorem everyTriggeredSlotIsServiced : Obligations.EveryTriggeredSlotIsServiced := by
  refine ⟨rfl, fun s => ?_⟩
  obtain ⟨depth, ticks, sp⟩ := foldl_enterInterrupt_counts (triggeredSlots s) s
  refine ⟨rfl, processInterrupts_eq s, ?_⟩
  rw [processInterrupts_eq s]
  refine ⟨depth, ticks, sp, fun j => ?_, fun none => by rw [none]; rfl, fun i last => ?_⟩
  · obtain ⟨factor, latch⟩ := foldl_enterInterrupt_slot (triggeredSlots s) s j
    refine ⟨?_, factor⟩
    rw [latch, contains_triggeredSlots, Bool.not_and_self]
  · obtain ⟨disabled, pc⟩ := foldl_enterInterrupt_last (triggeredSlots s) s i last
    refine ⟨disabled, ?_⟩
    rw [pc, codeAddrOf_toNat, pcBank_toNat]
    rfl

end Sys2Proof.Machine
end

section
/-! Settles the memory map (spec/20_memory.md R40 to R44) and the reset state (spec/70_reset_and_hazards.md R350, R351). -/

namespace Sys2Proof.Machine

/-! ### The ranges (R40) -/

theorem Range.holds_iff (r : Range) (k : DataAddr) : Range.holds r k = true ↔ r.lo ≤ k.toNat ∧ k.toNat ≤ r.hi := by
  simp [Range.holds]

theorem inRam_iff (s : State) (k : DataAddr) :
    s.inRam k = true ↔ s.params.map.ram.lo ≤ k.toNat ∧ k.toNat ≤ s.params.map.ram.hi :=
  Range.holds_iff _ k

theorem inDisplay_iff (s : State) (k : DataAddr) :
    s.inDisplay k = true ↔ s.params.map.disp1.lo ≤ k.toNat ∧ k.toNat ≤ s.params.map.disp1.hi ∨
      s.params.map.disp2.lo ≤ k.toNat ∧ k.toNat ≤ s.params.map.disp2.hi := by
  rw [State.inDisplay, Bool.or_eq_true, Range.holds_iff, Range.holds_iff]

theorem inIo_iff (s : State) (k : DataAddr) :
    s.inIo k = true ↔ s.params.map.io.lo ≤ k.toNat ∧ k.toNat ≤ s.params.map.io.hi :=
  Range.holds_iff _ k

theorem backed_iff (s : State) (k : DataAddr) :
    s.backed k = true ↔ s.inRam k = true ∨ s.inDisplay k = true ∨ s.inIo k = true := by
  simp [State.backed, or_assoc]

theorem displayAccess_iff (s : State) (k : DataAddr) :
    s.displayAccess k = true ↔ s.inRam k = false ∧ s.inDisplay k = true := by
  simp [State.displayAccess]

theorem ioAccess_iff (s : State) (k : DataAddr) :
    s.ioAccess k = true ↔ s.inRam k = false ∧ s.inDisplay k = false ∧ s.inIo k = true := by
  simp [State.ioAccess, and_assoc]

/-- R42: a read outside all ranges gives 0 and has no side effect. -/
theorem memRead_hole (k : DataAddr) (s : State) (hole : s.backed k = false) : memRead k s = (0, s) := by
  obtain ⟨noRam, noDisplay, noIo⟩ : s.inRam k = false ∧ s.inDisplay k = false ∧ s.inIo k = false := by
    simpa [State.backed, and_assoc] using hole
  simp [memRead, noRam, noDisplay, noIo]

/-- Settles O39: each access by its ranges, a hole by `memRead_hole` and `memWrite_hole`, the default map by its bounds. -/
theorem holesReadZeroAndDropWrites : Obligations.HolesReadZeroAndDropWrites := by
  intro s k n
  refine ⟨fun noRam noDisplay noIo => ?_, inRam_iff s k, inDisplay_iff s k, inIo_iff s k, backed_iff s k, displayAccess_iff s k,
    ioAccess_iff s k, rfl, fun standard => ?_⟩
  · have hole : s.backed k = false := by simp [State.backed, noRam, noDisplay, noIo]
    exact ⟨memRead_hole k s hole, memWrite_hole k n s hole⟩
  · rw [inRam_iff, inDisplay_iff, inIo_iff, standard]
    simp [standardMap]

/-! ### RAM and the display banks (R43, R44) -/

/-- Settles O40: RAM and display addresses have a cell and are no I/O access, and a write stores to its own cell only. -/
theorem writtenCellsReadBack : Obligations.WrittenCellsReadBack := by
  intro s k m n hw ramOrDisplay
  have backed : s.backed k = true := (backed_iff s k).mpr (ramOrDisplay.imp_right Or.inl)
  have plain : s.ioAccess k = false := by
    rcases ramOrDisplay with ram | display
    · simp [State.ioAccess, ram]
    · simp [State.ioAccess, display]
  have written : (memRead k (memWrite k n s)).1 = (memWrite k n s).cell k :=
    memRead_value_plain k _ ((ioAccess_of_params (by simp) k).trans plain) ((backed_of_params (by simp) k).trans backed)
  exact ⟨memRead_value_plain k s plain backed, written.trans (memWrite_cell_same k n s hw backed), memRead_state_plain k s plain,
    fun other noIo => memRead_value_congr m s _ (by simp) (memWrite_cell_other k m n s other) noIo⟩

/-! ### Reset (R28, R350, R351) -/

/-- An unlisted cell has its reset contents, and reset lists none. -/
theorem cell_reset (k : DataAddr) : State.reset.cell k = if k = 0xF54 then 0xF else if k = 0xF71 then 0x8 else 0 := by
  have address (v : DataAddr) : k = v ↔ k.toNat = v.toNat := BitVec.toNat_inj.symm
  simp only [address]
  rfl

theorem slots_reset (i : SlotId) : State.reset.slots.get i = ⟨0, 0, false⟩ := by
  cases i <;> rfl

/-- Settles O52: the reset state has the values it is written with, and a requested reset is that state with the host's own parts. -/
theorem resetLeavesTheStatedValues : Obligations.ResetLeavesTheStatedValues :=
  ⟨rfl, rfl, rfl, rfl, rfl, rfl, rfl, rfl, cell_reset, slots_reset, rfl, rfl, rfl, rfl, rfl, rfl, rfl, rfl, rfl, rfl, fun _ => rfl⟩

end Sys2Proof.Machine
end
